-- ==== Sys2Proof/Word.lean ====
section
/-! DEFINITION. The machine's word types (00_scope.md R6, "these widths are fixed"). -/

namespace Sys2Proof

/-- A register or command word: 32 bits (00_scope.md R6). -/
abbrev Word := BitVec 32

/-- A motor id: 4 bits (00_scope.md R6). -/
abbrev MotorId := BitVec 4

/-- A GPIO pin id: 8 bits (00_scope.md R6, 10_state.md R26). -/
abbrev PinId := BitVec 8

/-- A phase pattern `P`: bit `P[i]` drives pin index `i` (00_scope.md R6, R7). -/
abbrev Pattern := BitVec 4

/-- One bit as a bit vector, for the fields of a packed register. -/
def bit (b : Bool) : BitVec 1 := BitVec.ofBool b

/-- A word written as its fields, from the high end down; the fields' widths add up to 32. -/
def packed {n : Nat} (fields : BitVec n) (h : n = 32 := by rfl) : Word := fields.cast h

end Sys2Proof
end

