-- ==== Sys2Proof/Syntax.lean ====
section
/-! DEFINITION. The syntax: one constructor of `Instr` per row of spec/opcode_table.json. -/

namespace Sys2Proof

/-- A direction of traversal (30_encoding.md R97): DIR = 0 forward, DIR = 1 backward. -/
inductive Dir where
  | forward
  | backward
deriving DecidableEq, Repr

/-- What the host can ask of the block: the seven commands, the words of the two illegal opcode ranges, and the
three channel-configuration writes (30_encoding.md R98, R100, R103). A step count is a signed integer (R95); its
range is checked by `Instr.wf`. -/
inductive Instr where
  /-- NOP (43_control.md R200). -/
  | nop
  /-- ADVANCE m, dir, cnt (41_pwm_sequencer.md R150). -/
  | advance (m : MotorId) (d : Dir) (cnt : Int)
  /-- DEENERGIZE m (41_pwm_sequencer.md R156). -/
  | deenergize (m : MotorId)
  /-- LOAD m, dir, cnt (42_step_scheduler.md R170). -/
  | load (m : MotorId) (d : Dir) (cnt : Int)
  /-- RUN (42_step_scheduler.md R174). -/
  | run
  /-- CLEAR (42_step_scheduler.md R172). -/
  | clear
  /-- CLRERR (43_control.md R201). -/
  | clrerr
  /-- ILLEGAL_OPC7: a word of opcode 0x7 with any bits [27:0] (43_control.md R202). -/
  | illegalOpc7 (rest : BitVec 28)
  /-- ILLEGAL_OPC8_F: a word of opcode 0x8 to 0xF, that is bit 31 set, with any bits [30:0] (43_control.md R202). -/
  | illegalOpc8F (rest : BitVec 31)
  /-- WR_CH_CTRL: RegWrite(0x100 + 0x10*m, v) (41_pwm_sequencer.md R157). -/
  | wrChCtrl (m : MotorId) (v : Word)
  /-- WR_CH_PINS: RegWrite(0x104 + 0x10*m, v) (41_pwm_sequencer.md R158). -/
  | wrChPins (m : MotorId) (v : Word)
  /-- WR_CH_DELAY: RegWrite(0x108 + 0x10*m, v) (41_pwm_sequencer.md R159). -/
  | wrChDelay (m : MotorId) (v : Word)
deriving DecidableEq, Repr

end Sys2Proof
end

