-- ==== Sys2Proof/WellFormed.lean ====
section
/-! DEFINITION. Which instruction terms have an encoding. -/

namespace Sys2Proof

/-- A step count fits the 16-bit two's-complement COUNT field: -32768 to 32767 (30_encoding.md R95). -/
abbrev countFits (cnt : Int) : Prop := -32768 ≤ cnt ∧ cnt ≤ 32767

/-- An instruction is well formed when its count, if it has one, fits its field (30_encoding.md R95, R105). Every
other operand has the width of its field by its type (R96, R97, R104). -/
def Instr.wf : Instr → Bool
  | .nop => true
  | .advance _ _ cnt => decide (countFits cnt)
  | .deenergize _ => true
  | .load _ _ cnt => decide (countFits cnt)
  | .run => true
  | .clear => true
  | .clrerr => true
  | .illegalOpc7 _ => true
  | .illegalOpc8F _ => true
  | .wrChCtrl _ _ => true
  | .wrChPins _ _ => true
  | .wrChDelay _ _ => true

end Sys2Proof
end

