-- ==== Sys2Proof/Decode.lean ====
section
/-! DEFINITION. Decoding, total on every word and every register write, and the encoder. -/

namespace Sys2Proof

/-! ## Fields of the command word (30_encoding.md R91, R104) -/

/-- OPC, `w[31:28]`. -/
def opcField (w : Word) : BitVec 4 := w.extractLsb' 28 4

/-- MOTOR, `w[27:24]` (R96). -/
def motorField (w : Word) : MotorId := w.extractLsb' 24 4

/-- DIR, `w[23]`: 0 forward, 1 backward (R97). -/
def dirField (w : Word) : Dir := if w.getLsbD 23 then .backward else .forward

/-- RSV, `w[22:16]`, reserved in format MDC (R92). -/
def rsvField (w : Word) : BitVec 7 := w.extractLsb' 16 7

/-- COUNT, `sext_32(w[15:0])`, a signed integer (R95). -/
def countField (w : Word) : Int := (w.extractLsb' 0 16).toInt

/-! ## Decoding a command word (30_encoding.md R99) -/

/-- Why a register write is not one of the opcode table's instructions. -/
inductive DecodeError where
  /-- A word of a legal opcode with a reserved bit set: ILLEGAL (30_encoding.md R101). The sequencer's decode step
  raises E_ILLEGAL for it (41_pwm_sequencer.md R141). -/
  | reservedBits
  /-- A write to an offset that is neither CMD nor a CH_* register: read-only, reserved or outside the window
  (20_memory.md R65, R68). -/
  | notAnInstruction
deriving DecidableEq, Repr

/-- `i`, if the bits that must be 0 are 0 (30_encoding.md R98's reserved-bit column). -/
def ifReservedZero (zero : Bool) (i : Instr) : Except DecodeError Instr :=
  if zero then .ok i else .error .reservedBits

/-- `Decode(w)` of 30_encoding.md R99. Its ILLEGAL is a constructor for the two illegal opcode ranges, which have rows
in the opcode table, and the refusal `reservedBits` for a legal opcode with a reserved bit set. -/
def decodeCommand (w : Word) : Except DecodeError Instr :=
  match (opcField w).toNat with
  | 0 => ifReservedZero (w.extractLsb' 0 28 == 0#28) .nop
  | 1 => ifReservedZero (rsvField w == 0#7) (.advance (motorField w) (dirField w) (countField w))
  | 2 => ifReservedZero (w.extractLsb' 0 24 == 0#24) (.deenergize (motorField w))
  | 3 => ifReservedZero (rsvField w == 0#7) (.load (motorField w) (dirField w) (countField w))
  | 4 => ifReservedZero (w.extractLsb' 0 28 == 0#28) .run
  | 5 => ifReservedZero (w.extractLsb' 0 28 == 0#28) .clear
  | 6 => ifReservedZero (w.extractLsb' 0 28 == 0#28) .clrerr
  | 7 => .ok (.illegalOpc7 (w.extractLsb' 0 28))
  | _ => .ok (.illegalOpc8F (w.extractLsb' 0 31))

/-! ## Decoding a register write (30_encoding.md R103) -/

/-- One write of the register window: every instruction reaches the block as one (20_memory.md R60). -/
structure BusWrite where
  /-- The byte offset in the register window. -/
  off : Nat
  /-- The 32-bit word written. -/
  v : Word
deriving DecidableEq, Repr

/-- The channel a CH_* offset names: `off[7:4]` (30_encoding.md R103). -/
def channelOfOffset (off : Nat) : MotorId := BitVec.ofNat 4 (off / 16 % 16)

/-- The CH_* write of offset `off`: `off & 0xF0F` is 0x100, 0x104 or 0x108, for the offsets below 0x1000 that have
no more than these twelve bits (30_encoding.md R103). Whether the channel exists is the meaning's question. -/
def decodeChannelWrite (off : Nat) (v : Word) : Option Instr :=
  if off / 256 = 1 then
    match off % 16 with
    | 0 => some (.wrChCtrl (channelOfOffset off) v)
    | 4 => some (.wrChPins (channelOfOffset off) v)
    | 8 => some (.wrChDelay (channelOfOffset off) v)
    | _ => none
  else none

/-- The instruction a register write stands for: a command word at CMD (offset 0x000), a configuration write at a
CH_* offset. -/
def decode (b : BusWrite) : Except DecodeError Instr :=
  if b.off = 0 then decodeCommand b.v
  else
    match decodeChannelWrite b.off b.v with
    | some i => .ok i
    | none => .error .notAnInstruction

/-! ## The opcode table's own numbering -/

/-- The number of bits from which on a table word is a command word: the table's REGW rows number the bits of a
12-bit register offset, its other rows those of a 32-bit command word (log 19). -/
def commandBits : Nat := 32

/-- The register write that a table word `w` of `nbits` bits stands for (log 19). A row of fewer than 32 bits is a
register offset, its data word zeros. A word of 32 bits is a command word; one that the command decoder refuses and
that is, read as a number, a CH_* offset is that offset: the table's REGW rows share the number space of its words. -/
def busWriteOfTableWord (nbits w : Nat) : BusWrite :=
  if nbits < commandBits then ⟨w, 0#32⟩
  else
    match decodeCommand (BitVec.ofNat 32 w), decodeChannelWrite w 0#32 with
    | .error _, some _ => ⟨w, 0#32⟩
    | _, _ => ⟨0, BitVec.ofNat 32 w⟩

/-- The instruction the decoder reads from a table word (none where it refuses). -/
def decodeTableWord (nbits w : Nat) : Option Instr :=
  match decode (busWriteOfTableWord nbits w) with
  | .ok i => some i
  | .error _ => none

/-! ## The encoder -/

/-- DIR as its bit (30_encoding.md R97). -/
def dirBit : Dir → BitVec 1
  | .forward => 0#1
  | .backward => 1#1

/-- Format MDC: `oooo mmmm d000 0000 cccc cccc cccc cccc` (30_encoding.md R92). -/
def encodeMDC (opc : BitVec 4) (m : MotorId) (d : Dir) (cnt : Int) : Word :=
  packed (opc ++ m ++ dirBit d ++ 0#7 ++ BitVec.ofInt 16 cnt)

/-- Format M: `oooo mmmm` and 24 zeros (30_encoding.md R93). -/
def encodeM (opc : BitVec 4) (m : MotorId) : Word := packed (opc ++ m ++ 0#24)

/-- Format Z: `oooo` and 28 zeros (30_encoding.md R94). -/
def encodeZ (opc : BitVec 4) : Word := packed (opc ++ 0#28)

/-- The offset of a CH_* register of channel `m`: `base + 0x10*m` (20_memory.md R62). -/
def channelOffset (base : Nat) (m : MotorId) : Nat := base + 16 * m.toNat

/-- The register write that stands for an instruction, from the encoding tables of 30_encoding.md R92 to R98 and
R103. -/
def encode : Instr → BusWrite
  | .nop => ⟨0x000, encodeZ 0x0#4⟩
  | .advance m d cnt => ⟨0x000, encodeMDC 0x1#4 m d cnt⟩
  | .deenergize m => ⟨0x000, encodeM 0x2#4 m⟩
  | .load m d cnt => ⟨0x000, encodeMDC 0x3#4 m d cnt⟩
  | .run => ⟨0x000, encodeZ 0x4#4⟩
  | .clear => ⟨0x000, encodeZ 0x5#4⟩
  | .clrerr => ⟨0x000, encodeZ 0x6#4⟩
  | .illegalOpc7 rest => ⟨0x000, packed (0x7#4 ++ rest)⟩
  | .illegalOpc8F rest => ⟨0x000, packed (1#1 ++ rest)⟩
  | .wrChCtrl m v => ⟨channelOffset 0x100 m, v⟩
  | .wrChPins m v => ⟨channelOffset 0x104 m, v⟩
  | .wrChDelay m v => ⟨channelOffset 0x108 m, v⟩

/-- The command word of an instruction; 0 for a configuration write, which has none. -/
def commandWord (i : Instr) : Word := if (encode i).off = 0 then (encode i).v else 0#32

end Sys2Proof
end

