-- ==== Sys2Proof/Config.lean ====
section
/-! DEFINITION. The implementation parameters of 00_scope.md R6, and the free answers of the `oracle` host. -/

namespace Sys2Proof

/-- HOST_WRITE_MODEL (00_scope.md R6, 60_exceptions.md R246). -/
inductive HostWriteModel where
  | enableBit
  | oracle
deriving DecidableEq, Repr

/-- The parameters the model takes (00_scope.md R6). They are constant: no command, register write or reset
changes them (40_phase_table_lut.md R124, 10_state.md R29). Legal values: `ConfigOk` (Machine/PhaseTable.lean). -/
structure Config where
  /-- NM, the number of motor channels. -/
  nm : Nat
  /-- NSLOT, the capacity of the command list. -/
  nslot : Nat
  /-- TABLE_HALF, 8 patterns (40_phase_table_lut.md R122, R125). -/
  tableHalf : Vector Pattern 8
  /-- TABLE_FULL, 4 patterns (40_phase_table_lut.md R123, R126). -/
  tableFull : Vector Pattern 4
  /-- TICK, the period of one delay tick, in microseconds (log 16). No rule depends on it (70_reset_and_hazards.md R290). -/
  tick : Rat
  /-- HOST_WRITE_MODEL. -/
  hostModel : HostWriteModel
deriving DecidableEq, Repr

/-- FREE VALUE (log 3): whether the host accepts its `n`-th answered pin write under `oracle`, "a free draw per
write" (60_exceptions.md R246). It has no body: nothing can evaluate it. -/
opaque Config.hostAnswer : Nat → Bool

end Sys2Proof
end

