-- ==== Sys2Proof/Machine/PhaseTable.lean ====
section
/-! DEFINITION. phase_table_lut: the phase tables, the lookup, and the traversal (40_phase_table_lut.md). -/

namespace Sys2Proof.Machine

/-- CH_CTRL.MODE: 0 half-step, 1 full-step (10_state.md R25). -/
inductive Mode where
  | half
  | full
deriving DecidableEq, Repr

/-- MODE as its bit. -/
def modeBit : Mode → BitVec 1
  | .half => 0#1
  | .full => 1#1

/-- `L(mode)`: 8 for half-step, 4 for full-step (R120). -/
def tableLength : Mode → Nat
  | .half => 8
  | .full => 4

/-- `Lookup(mode, idx)`, defined for `idx < L(mode)` (R120). -/
def lookup (c : Config) (mode : Mode) (idx : Nat) : Option Pattern :=
  match mode with
  | .half => c.tableHalf[idx]?
  | .full => c.tableFull[idx]?

/-- `Start(dir, L)` (R129). -/
def startIndex (d : Dir) (len : Nat) : Nat :=
  match d with
  | .forward => 0
  | .backward => len - 1

/-- `Next(idx, dir, L)` (R129). -/
def nextIndex (idx : Nat) (d : Dir) (len : Nat) : Nat :=
  match d with
  | .forward => (idx + 1) % len
  | .backward => (idx + len - 1) % len

/-- The number of active pins of a pattern. -/
def popcount (p : Pattern) : Nat :=
  (p.getLsbD 0).toNat + (p.getLsbD 1).toNat + (p.getLsbD 2).toNat + (p.getLsbD 3).toNat

/-! ## What an admissible table satisfies -/

/-- TABLE_HALF as R122 and R125 constrain it: entry 0 is 0x8, neighbours (the wrap pair included) differ in exactly one
pin, every entry has 1 or 2 active pins, the entries are distinct. -/
abbrev HalfTableOk (t : Vector Pattern 8) : Prop :=
  t[0] = 0x8#4 ∧
  (∀ i : Fin 8, popcount (t[i.val] ^^^ t[(i.val + 1) % 8]'(by omega)) = 1) ∧
  (∀ i : Fin 8, popcount t[i.val] = 1 ∨ popcount t[i.val] = 2) ∧
  (∀ i j : Fin 8, t[i.val] = t[j.val] → i = j)

/-- TABLE_FULL as R123 and R126 constrain it: every entry has exactly two active pins, each shares exactly one with
the next (the wrap pair included), the entries are distinct. -/
abbrev FullTableOk (t : Vector Pattern 4) : Prop :=
  (∀ i : Fin 4, popcount t[i.val] = 2) ∧
  (∀ i : Fin 4, popcount (t[i.val] &&& t[(i.val + 1) % 4]'(by omega)) = 1) ∧
  (∀ i j : Fin 4, t[i.val] = t[j.val] → i = j)

/-- The legal values of the parameters (00_scope.md R6). -/
abbrev ConfigOk (c : Config) : Prop :=
  1 ≤ c.nm ∧ c.nm ≤ 16 ∧ 1 ≤ c.nslot ∧ c.nslot ≤ 16 ∧ HalfTableOk c.tableHalf ∧ FullTableOk c.tableFull ∧ 0 < c.tick

/-! ## The reference contents -/

/-- TABLE_HALF in the reference configuration (R121). -/
def referenceHalf : Vector Pattern 8 := #v[0x8#4, 0xC#4, 0x4#4, 0x6#4, 0x2#4, 0x3#4, 0x1#4, 0x9#4]

/-- TABLE_FULL in the reference configuration (R121). -/
def referenceFull : Vector Pattern 4 := #v[0xC#4, 0x6#4, 0x3#4, 0x9#4]

/-- The six tables that meet R122 and R125 (R133). -/
def sixHalfTables : List (Vector Pattern 8) :=
  [ referenceHalf,
    #v[0x8#4, 0x9#4, 0x1#4, 0x3#4, 0x2#4, 0x6#4, 0x4#4, 0xC#4],
    #v[0x8#4, 0xC#4, 0x4#4, 0x5#4, 0x1#4, 0x3#4, 0x2#4, 0xA#4],
    #v[0x8#4, 0xA#4, 0x2#4, 0x3#4, 0x1#4, 0x5#4, 0x4#4, 0xC#4],
    #v[0x8#4, 0x9#4, 0x1#4, 0x5#4, 0x4#4, 0x6#4, 0x2#4, 0xA#4],
    #v[0x8#4, 0xA#4, 0x2#4, 0x6#4, 0x4#4, 0x5#4, 0x1#4, 0x9#4] ]

/-- The reference values of the parameters (00_scope.md R6): NM = 4, NSLOT = 8, TICK = 1 µs, `enable_bit`. -/
def referenceConfig : Config :=
  { nm := 4, nslot := 8, tableHalf := referenceHalf, tableFull := referenceFull, tick := 1, hostModel := .enableBit }

end Sys2Proof.Machine
end

