-- ==== Sys2Proof/Machine/State.lean ====
section
/-! DEFINITION. The state of the block and of the host's GPIO port, the reasons a step can stop, and reset. -/

namespace Sys2Proof.Machine

/-- STATUS.ECODE's legal values (60_exceptions.md R220). -/
inductive ErrCode where
  | none
  | illegal
  | invalidArg
  | noMotor
  | busy
  | listFull
  | pinFault
deriving DecidableEq, Repr

/-- Channel `m`: the block's copy of one MotorUnit, its CH_CTRL, CH_PINS and CH_DELAY fields (10_state.md R25 to R27). -/
structure Channel where
  valid : Bool
  mode : Mode
  pin0 : PinId
  pin1 : PinId
  pin2 : PinId
  pin3 : PinId
  delay : Word
deriving DecidableEq, Repr

/-- A channel after reset (70_reset_and_hazards.md R260). -/
def Channel.unbuilt : Channel :=
  { valid := false, mode := .half, pin0 := 0#8, pin1 := 0#8, pin2 := 0#8, pin3 := 0#8, delay := 0#32 }

/-- A loaded slot: the block's copy of one StepCommand (10_state.md R33). -/
structure Slot where
  motor : MotorId
  dir : Dir
  /-- REMAINING, 16 bits holding 0 to 32767. -/
  remaining : Nat
  /-- IDX, 3 bits. -/
  idx : Nat
deriving DecidableEq, Repr

/-- The continuation: the sequencer's next atomic step (10_state.md R34). `j` is the pin index of a GpioWrite. -/
inductive Cont where
  /-- The decode step (41_pwm_sequencer.md R141). -/
  | decode
  /-- ADVANCE: write pin `j` of the phase pattern at ADV_IDX (R150). -/
  | advPhase (j : Fin 4)
  /-- ADVANCE: the dwell after a phase pattern (R150). -/
  | advDwell
  /-- ADVANCE and DEENERGIZE: write pin `j` of the all-zero pattern, then complete (R150, R156). -/
  | deenergize (j : Fin 4)
  /-- RUN: write pin `j` of the phase pattern of the slot at RUN_CUR (42_step_scheduler.md R174). -/
  | runPhase (j : Fin 4)
  /-- RUN: the dwell of the slot at RUN_CUR (R174). -/
  | runDwell
  /-- RUN: write pin `j` of the all-zero pattern at the end of the burst of the slot at RUN_CUR (R174, R179). -/
  | runDeenergize (j : Fin 4)
  /-- RUN: the final step, ClearList and complete (R174, R178). -/
  | runEnd
  /-- The final step of every other command (00_scope.md R8). -/
  | complete
deriving DecidableEq, Repr

/-- An event of the observable trace (00_scope.md R9). -/
inductive Event where
  /-- `PinWrite(p, lvl)`; `high = true` is level high. -/
  | pinWrite (p : PinId) (high : Bool)
  /-- `Dwell(m, d)`, `d` in ticks. -/
  | dwell (m : MotorId) (d : Word)
deriving DecidableEq, Repr

/-- What a register access answers the host (20_memory.md R60). -/
inductive Answer where
  | data (w : Word)
  | ok
  | busError
deriving DecidableEq, Repr

/-- One host step (00_scope.md R5, R10). -/
inductive HostOp where
  /-- A read of `width` bits at byte offset `off` (20_memory.md R60, R68). -/
  | regRead (width off : Nat)
  /-- A write of `width` bits at byte offset `off` (20_memory.md R60, R68). -/
  | regWrite (width off : Nat) (v : Word)
  /-- The host changes OUT_EN[p] (60_exceptions.md R247). -/
  | setOutEn (p : PinId) (enabled : Bool)
  /-- The host changes LEVEL[p] (60_exceptions.md R247). -/
  | setLevel (p : PinId) (high : Bool)
  /-- Reset (70_reset_and_hazards.md R260, R261). -/
  | reset
deriving DecidableEq, Repr

/-- Whose turn it is (log 4). -/
inductive Turn where
  /-- The sequencer takes its next step, if it has one. -/
  | sequencer
  /-- The host takes one step. -/
  | host (op : HostOp)
  /-- The `wait` poll (30_encoding.md R107, log 8). -/
  | wait
deriving DecidableEq, Repr

/-- The state. -/
structure State where
  /-- The parameters (00_scope.md R6), constant. -/
  cfg : Config
  /-- STATUS.BUSY. -/
  busy : Bool
  /-- STATUS.ERR. -/
  err : Bool
  /-- STATUS.ERROVF. -/
  errovf : Bool
  /-- STATUS.ECODE. -/
  ecode : ErrCode
  /-- ERRINFO. -/
  errinfo : Word
  /-- The channel file, storage for the largest NM; channels at and above NM are never written (20_memory.md R63). -/
  chans : Vector Channel 16
  /-- The loaded slots in load order; LISTLEN is its length, and every field of a slot beyond it is 0 (log 15). -/
  slots : List Slot
  /-- CMDL, the accepted command word. -/
  cmdl : Word
  /-- The continuation; none when the sequencer is idle. -/
  cont : Option Cont
  /-- ADV_IDX. -/
  advIdx : Nat
  /-- ADV_LEFT. -/
  advLeft : Nat
  /-- RUN_TOTAL. -/
  runTotal : Nat
  /-- RUN_DONE. -/
  runDone : Nat
  /-- RUN_CUR. -/
  runCur : Nat
  /-- OUT_EN[p], the host's (60_exceptions.md R245). -/
  outEn : Vector Bool 256
  /-- LEVEL[p], the host's (60_exceptions.md R245). -/
  level : Vector Bool 256
  /-- MODEL's own: how many free answers the `oracle` host has given (log 3). -/
  draws : Nat
  /-- MODEL's own: the events so far, oldest first (00_scope.md R9). -/
  trace : List Event
  /-- MODEL's own: the answers to the host's register accesses so far, oldest first (00_scope.md R9). -/
  answers : List Answer
  /-- MODEL's own: the turns still to come (log 4). -/
  agenda : List Turn
deriving DecidableEq, Repr

/-- Why the machine stops with a fault. Neither fault is reachable from a state that meets the invariant
(Safety.lean), so both are safe. -/
inductive Fault where
  /-- Raised by a phase pattern write whose index is not below the table's length. 40_phase_table_lut.md R120: "A
  model may treat idx >= L(mode) as unreachable and fault if it is ever reached". Safe (log 11). -/
  | phaseIndexOutOfRange
  /-- Raised by RUN when RUN_DONE < RUN_TOTAL and no slot has REMAINING > 0, or RUN_CUR names no slot: the loop of
  42_step_scheduler.md R174 would never leave its pure part, a stuck state. Safe (log 12). -/
  | noActiveSlot
deriving DecidableEq, Repr

/-- Why the model refuses a step. -/
inductive Refusal where
  /-- An instruction the model gives no meaning, by its mnemonic. No arm of `exec` answers it. Safe. -/
  | notModelled (mnemonic : String)
deriving DecidableEq, Repr

/-- The three outcomes of a step of this machine. -/
abbrev Outcome := Host.Outcome State Fault Refusal

/-- The machine right after reset (70_reset_and_hazards.md R260), with the reference parameters (log 2), an idle
agenda (log 4), and the host's GPIO port, whose reset value the spec leaves open, all 0 (log 1). -/
def State.reset : State :=
  { cfg := referenceConfig
    busy := false
    err := false
    errovf := false
    ecode := .none
    errinfo := 0#32
    chans := Vector.replicate 16 Channel.unbuilt
    slots := []
    cmdl := 0#32
    cont := none
    advIdx := 0
    advLeft := 0
    runTotal := 0
    runDone := 0
    runCur := 0
    outEn := Vector.replicate 256 false
    level := Vector.replicate 256 false
    draws := 0
    trace := []
    answers := []
    agenda := [] }

end Sys2Proof.Machine
end

