-- ==== Sys2Proof/Machine/Operands.lean ====
section
/-! DEFINITION. Operands: the channel file, the slot list, the motor operand, the fields CMDL holds, pins and patterns. -/

namespace Sys2Proof.Machine

/-! ## The channel file -/

/-- `CH[m]`. -/
def State.chan (s : State) (m : MotorId) : Channel := s.chans[m.toNat]'(by have := m.isLt; omega)

/-- `CH[m] <- c`. -/
def State.setChan (s : State) (m : MotorId) (c : Channel) : State :=
  { s with chans := s.chans.set m.toNat c (by have := m.isLt; omega) }

/-- `CH[m].PINj` (10_state.md R26). -/
def Channel.pin (c : Channel) (j : Fin 4) : PinId :=
  match j with
  | 0 => c.pin0
  | 1 => c.pin1
  | 2 => c.pin2
  | 3 => c.pin3

/-- `L(CH[m].MODE)` (40_phase_table_lut.md R120). -/
def State.tableLen (s : State) (m : MotorId) : Nat := tableLength (s.chan m).mode

/-- `Pattern(m, idx)` (40_phase_table_lut.md R128). -/
def State.pattern (s : State) (m : MotorId) (idx : Nat) : Option Pattern := lookup s.cfg (s.chan m).mode idx

/-- The motor operand is valid: `m < NM` and `CH[m].VALID = 1` (30_encoding.md R96, 60_exceptions.md R223). -/
def State.motorOk (s : State) (m : MotorId) : Bool := decide (m.toNat < s.cfg.nm) && (s.chan m).valid

/-! ## The command list -/

/-- LISTLEN, the number of loaded slots (10_state.md R31). -/
def State.listLen (s : State) : Nat := s.slots.length

/-- The number of the first slot, from number `k` on, whose motor fails the test, and that motor (42_step_scheduler.md
R174, "first failing slot"). -/
def firstBadSlot (s : State) : Nat → List Slot → Option (Nat × MotorId)
  | _, [] => none
  | k, sl :: rest => if s.motorOk sl.motor then firstBadSlot s (k + 1) rest else some (k, sl.motor)

/-- `sum of SLOT[s].REMAINING` (42_step_scheduler.md R174). -/
def totalRemaining (slots : List Slot) : Nat := (slots.map Slot.remaining).sum

/-- A slot with its IDX at the start of its traversal (42_step_scheduler.md R175). -/
def State.startSlot (s : State) (sl : Slot) : Slot := { sl with idx := startIndex sl.dir (s.tableLen sl.motor) }

/-- The slot after one phase-step: IDX moved by `Next`, REMAINING decremented (42_step_scheduler.md R174). -/
def State.steppedSlot (s : State) (sl : Slot) : Slot :=
  { sl with idx := nextIndex sl.idx sl.dir (s.tableLen sl.motor), remaining := sl.remaining - 1 }

/-- The round-robin cursor's next visit: the first slot with REMAINING > 0, looking at `k` slots from number `c` on and
wrapping modulo LISTLEN (42_step_scheduler.md R176). The skipped slots produce no event and take no step. -/
def seekActive (slots : List Slot) : Nat → Nat → Option Nat
  | 0, _ => none
  | k + 1, c =>
    match slots[c]? with
    | none => none
    | some sl => if 0 < sl.remaining then some c else seekActive slots k ((c + 1) % slots.length)

/-! ## The running command's operands -/

/-- `CMDL[31:28]`. -/
def State.cmdOpc (s : State) : BitVec 4 := opcField s.cmdl

/-- `CMDL[27:24]`, the motor of the running ADVANCE or DEENERGIZE (41_pwm_sequencer.md R150, R156). -/
def State.cmdMotor (s : State) : MotorId := motorField s.cmdl

/-- `CMDL[23]`, the direction of the running ADVANCE (41_pwm_sequencer.md R150). -/
def State.cmdDir (s : State) : Dir := dirField s.cmdl

/-! ## The host GPIO port -/

/-- `OUT_EN[p]` (60_exceptions.md R245). -/
def State.outEnabled (s : State) (p : PinId) : Bool := s.outEn[p.toNat]'(by have := p.isLt; omega)

/-- `LEVEL[p]` (60_exceptions.md R245); true is level high. -/
def State.pinLevel (s : State) (p : PinId) : Bool := s.level[p.toNat]'(by have := p.isLt; omega)

/-- `OUT_EN[p] <- b`. -/
def State.setOutEnabled (s : State) (p : PinId) (b : Bool) : State :=
  { s with outEn := s.outEn.set p.toNat b (by have := p.isLt; omega) }

/-- `LEVEL[p] <- b`. -/
def State.setPinLevel (s : State) (p : PinId) (b : Bool) : State :=
  { s with level := s.level.set p.toNat b (by have := p.isLt; omega) }

end Sys2Proof.Machine
end

