-- ==== Sys2Proof/Machine/Flags.lean ====
section
/-! DEFINITION. The packed register words, the error codes and the recording of an error (10_state.md, 60_exceptions.md). -/

namespace Sys2Proof.Machine

/-- The number of an error code (60_exceptions.md R220). -/
def errCodeBits : ErrCode → BitVec 4
  | .none => 0#4
  | .illegal => 1#4
  | .invalidArg => 2#4
  | .noMotor => 3#4
  | .busy => 4#4
  | .listFull => 5#4
  | .pinFault => 6#4

/-- STATUS: `[0]` BUSY, `[1]` ERR, `[2]` ERROVF, `[11:8]` ECODE, `[20:16]` LISTLEN, the other bits 0 (10_state.md R24). -/
def State.statusWord (s : State) : Word :=
  packed (0#11 ++ BitVec.ofNat 5 s.listLen ++ 0#4 ++ errCodeBits s.ecode ++ 0#5 ++ bit s.errovf ++ bit s.err ++
    bit s.busy)

/-- PARAMS: `[4:0]` NM, `[12:8]` NSLOT, `[23:16]` VERSION = 0x01, the other bits 0 (10_state.md R29). -/
def State.paramsWord (s : State) : Word :=
  packed (0#8 ++ 0x01#8 ++ 0#3 ++ BitVec.ofNat 5 s.cfg.nslot ++ 0#3 ++ BitVec.ofNat 5 s.cfg.nm)

/-- CH_CTRL(m): `[0]` VALID, `[1]` MODE (10_state.md R25). -/
def Channel.ctrlWord (c : Channel) : Word := packed (0#30 ++ modeBit c.mode ++ bit c.valid)

/-- CH_PINS(m): PIN3, PIN2, PIN1, PIN0 from the high byte down (10_state.md R26). -/
def Channel.pinsWord (c : Channel) : Word := packed (c.pin3 ++ c.pin2 ++ c.pin1 ++ c.pin0)

/-- A loaded slot as SLOT(s) shows it: `[15:0]` REMAINING, `[18:16]` IDX, `[19]` DIR, `[23:20]` MOTOR, `[31]` LOADED = 1
(10_state.md R32). -/
def Slot.word (sl : Slot) : Word :=
  packed (1#1 ++ 0#7 ++ sl.motor ++ dirBit sl.dir ++ BitVec.ofNat 3 sl.idx ++ BitVec.ofNat 16 sl.remaining)

/-- SLOT(n): the loaded slot's word, or 0 for `n >= LISTLEN` (10_state.md R32). -/
def State.slotWord (s : State) (n : Nat) : Word :=
  match s.slots[n]? with
  | some sl => sl.word
  | none => 0#32

/-- What a raise records; every field not given is 0 (60_exceptions.md R228, R229). -/
structure ErrInfo where
  opc : BitVec 4 := 0#4
  motor : MotorId := 0#4
  pinidx : BitVec 2 := 0#2
  deen : Bool := false
  regw : Bool := false
  pinid : PinId := 0#8
  pat : Pattern := 0#4
  slot : BitVec 4 := 0#4
deriving DecidableEq, Repr

/-- `Pack(info)`: the layout of ERRINFO, `[31:28]` SLOT, `[27:24]` PAT, `[23:16]` PINID, `[15:12]` 0, `[11]` REGW, `[10]` DEEN,
`[9:8]` PINIDX, `[7:4]` MOTOR, `[3:0]` OPC (10_state.md R28, 60_exceptions.md R229). -/
def ErrInfo.pack (e : ErrInfo) : Word :=
  packed (e.slot ++ e.pat ++ e.pinid ++ 0#4 ++ bit e.regw ++ bit e.deen ++ e.pinidx ++ e.motor ++ e.opc)

/-- `Record(code, info)`: the first error is kept whole, a later one sets ERROVF only (60_exceptions.md R228). -/
def recordError (code : ErrCode) (info : ErrInfo) (s : State) : State :=
  if s.err then { s with errovf := true }
  else { s with err := true, ecode := code, errinfo := info.pack }

/-- What CLRERR clears: ERR, ERROVF, ECODE and ERRINFO (43_control.md R201). -/
def clearErrors (s : State) : State :=
  { s with err := false, errovf := false, ecode := .none, errinfo := 0#32 }

end Sys2Proof.Machine
end

