-- ==== Sys2Proof/Machine/Ops.lean ====
section
/-! DEFINITION. The shared operations: raising an error, ending a command, pin writes, dwells, the command list, the
register window, the host's answers, reset. -/

namespace Sys2Proof.Machine

/-! ## The command list and the end of a command -/

/-- `ClearList()`: LISTLEN <- 0 and every field of every slot 0 (42_step_scheduler.md R172). -/
def clearList (s : State) : State := { s with slots := [] }

/-- `complete`: the command's final step (00_scope.md R8). -/
def complete (s : State) : State := { s with busy := false, cont := none }

/-- The continuation of a command whose decode step has passed its checks. -/
def continueWith (k : Cont) (s : State) : State := { s with cont := some k }

/-! ## Taking an error -/

/-- `raise E_X(info)` in a sequencer step: the error is recorded, a RUN's list is cleared, the command ends and the
sequencer is idle (60_exceptions.md R230). `inRun` says that the command raising it decoded as RUN (log 14). -/
def raise (code : ErrCode) (info : ErrInfo) (inRun : Bool) (s : State) : State :=
  complete (if inRun then clearList (recordError code info s) else recordError code info s)

/-- E_ILLEGAL of the word with opcode `opc` (60_exceptions.md R221). -/
def raiseIllegal (opc : BitVec 4) (s : State) : State := raise .illegal { opc := opc } false s

/-- E_NOMOTOR or E_INVALID_ARG or E_LIST_FULL of a command word with a motor field (60_exceptions.md R229). -/
def raiseOperand (code : ErrCode) (opc : BitVec 4) (m : MotorId) (s : State) : State :=
  raise code { opc := opc, motor := m } false s

/-! ## Pin writes and dwells -/

/-- The host's answer to the next pin write to `p`: `ok` is true (60_exceptions.md R246). Under `oracle` it is a free
value (log 3). -/
def hostAccepts (s : State) (p : PinId) : Bool :=
  match s.cfg.hostModel with
  | .enableBit => s.outEnabled p
  | .oracle => Config.hostAnswer s.draws

/-- The state in which an answer has been drawn: the next free answer is another draw (log 3). -/
def drawAnswer (s : State) : State :=
  match s.cfg.hostModel with
  | .enableBit => s
  | .oracle => { s with draws := s.draws + 1 }

/-- An accepted `GpioWrite(p, lvl)`: LEVEL[p] is set and the event recorded (60_exceptions.md R246, 00_scope.md R8). -/
def acceptedWrite (p : PinId) (lvl : Bool) (s : State) : State :=
  { (drawAnswer s).setPinLevel p lvl with trace := s.trace ++ [.pinWrite p lvl] }

/-- One pattern write in progress: `ApplyPattern(m, P, kind)` (41_pwm_sequencer.md R142). `slot` is the slot's number
inside RUN and none outside it. -/
structure PatternWrite where
  motor : MotorId
  pat : Pattern
  deen : Bool
  slot : Option Nat
deriving DecidableEq, Repr

/-- What E_PIN_FAULT records for the rejected write of pin `j` (41_pwm_sequencer.md R142, 60_exceptions.md R229). -/
def pinFaultInfo (w : PatternWrite) (j : Fin 4) (s : State) : ErrInfo :=
  { opc := s.cmdOpc
    motor := w.motor
    pinidx := BitVec.ofNat 2 j.val
    deen := w.deen
    pinid := (s.chan w.motor).pin j
    pat := w.pat
    slot := BitVec.ofNat 4 (w.slot.getD 0) }

/-- The step of `ApplyPattern` that writes pin `j`: accepted, the command goes on with `next`; rejected, the pin keeps
its level, E_PIN_FAULT is raised and the command ends (41_pwm_sequencer.md R142). -/
def writePin (w : PatternWrite) (j : Fin 4) (next : State → Outcome) (s : State) : Outcome :=
  if hostAccepts s ((s.chan w.motor).pin j) then
    next (acceptedWrite ((s.chan w.motor).pin j) (w.pat.getLsbD j.val) s)
  else
    .next (raise .pinFault (pinFaultInfo w j s) w.slot.isSome (drawAnswer s))

/-- `Dwell(m)`: one step that records the event `Dwell(m, CH[m].DELAY)` (41_pwm_sequencer.md R143). -/
def dwell (m : MotorId) (s : State) : State :=
  { s with trace := s.trace ++ [.dwell m (s.chan m).delay] }

/-- How long `Dwell(m)` lasts in the reference implementation, in microseconds: `CH[m].DELAY x TICK` (41_pwm_sequencer.md
R143). For information: no step reads it (log 16). -/
def dwellTime (m : MotorId) (s : State) : Rat := (s.chan m).delay.toNat * s.cfg.tick

/-! ## The head of RUN's loop -/

/-- The test and the visit of RUN's loop, with the skipped visits before it, all pure (42_step_scheduler.md R174, R176,
R177). -/
def runHead (s : State) : Outcome :=
  if s.runDone < s.runTotal then
    match seekActive s.slots s.slots.length s.runCur with
    | some c => .next (continueWith (.runPhase 0) { s with runCur := c })
    | none => .fault .noActiveSlot
  else .next (continueWith .runEnd s)

/-- `RUN_CUR <- (RUN_CUR + 1) mod LISTLEN`, at the end of a visit (42_step_scheduler.md R174). -/
def advanceCursor (s : State) : State := { s with runCur := (s.runCur + 1) % s.slots.length }

/-! ## Command acceptance -/

/-- The host's write of `w` to CMD (41_pwm_sequencer.md R140): accepted when idle, dropped with E_BUSY when busy. -/
def submit (w : Word) (s : State) : State :=
  if s.busy then recordError .busy { opc := opcField w, motor := motorField w } s
  else { s with cmdl := w, busy := true, cont := some .decode }

/-- The host's write to a CH_* register of channel `m` (41_pwm_sequencer.md R157 to R159): no channel there, ignored
(20_memory.md R63); busy, dropped with E_BUSY; else the channel takes its new fields. -/
def writeChannel (m : MotorId) (f : Channel → Channel) (s : State) : State :=
  if m.toNat < s.cfg.nm then
    if s.busy then recordError .busy { regw := true, motor := m } s
    else s.setChan m (f (s.chan m))
  else s

/-! ## The register window -/

/-- What stands at an offset of the register window (20_memory.md R62 to R65). -/
inductive RegSel where
  | cmd
  | status
  | errinfo
  | params
  | chCtrl (m : MotorId)
  | chPins (m : MotorId)
  | chDelay (m : MotorId)
  | slot (n : Nat)
  | reserved
deriving DecidableEq, Repr

/-- The register map (20_memory.md R62), with the channels at and above NM (R63), the slots at and above NSLOT (R64)
and every other offset reserved (R65). -/
def regAt (c : Config) (off : Nat) : RegSel :=
  if off = 0x000 then .cmd
  else if off = 0x004 then .status
  else if off = 0x008 then .errinfo
  else if off = 0x00C then .params
  else if off / 256 = 1 then
    if off / 16 % 16 < c.nm then
      match off % 16 with
      | 0x0 => .chCtrl (channelOfOffset off)
      | 0x4 => .chPins (channelOfOffset off)
      | 0x8 => .chDelay (channelOfOffset off)
      | _ => .reserved
    else .reserved
  else if off / 64 = 8 ∧ off % 4 = 0 ∧ (off - 0x200) / 4 < c.nslot then .slot ((off - 0x200) / 4)
  else .reserved

/-- The word a read of an offset returns (10_state.md R22 to R32, 20_memory.md R65). It has no side effect (R39). -/
def readReg (s : State) (off : Nat) : Word :=
  match regAt s.cfg off with
  | .cmd => 0#32
  | .status => s.statusWord
  | .errinfo => s.errinfo
  | .params => s.paramsWord
  | .chCtrl m => (s.chan m).ctrlWord
  | .chPins m => (s.chan m).pinsWord
  | .chDelay m => (s.chan m).delay
  | .slot n => s.slotWord n
  | .reserved => 0#32

/-- The byte at byte offset `off` of the little-endian window: bits `[8*(off mod 4)+7 : 8*(off mod 4)]` of the register
at `off - (off mod 4)` (20_memory.md R67). No access moves it alone (R68). -/
def regByte (s : State) (off : Nat) : BitVec 8 :=
  (readReg s (off - off % 4)).extractLsb' (8 * (off % 4)) 8

/-- An access is admitted: 32 bits wide, its offset a multiple of 4, inside 0x000 to 0x3FF (20_memory.md R68). -/
def admitted (width off : Nat) : Bool := width == 32 && off % 4 == 0 && decide (off < 0x400)

/-- The host is given an answer. -/
def answer (a : Answer) (s : State) : State := { s with answers := s.answers ++ [a] }

/-- A host read: the register's word, or `buserr` (20_memory.md R60, R68). -/
def hostRead (width off : Nat) (s : State) : State :=
  if admitted width off then answer (.data (readReg s off)) s else answer .busError s

/-! ## Reset -/

/-- Reset (70_reset_and_hazards.md R260): the block's state. The GPIO port is the host's and keeps its levels (R261);
the parameters are constant; the trace, the answers, the free answers drawn and the agenda are not the block's
(log 22). -/
def resetBlock (s : State) : State :=
  { s with
    busy := false
    err := false
    errovf := false
    ecode := .none
    errinfo := 0#32
    chans := Vector.replicate 16 Channel.unbuilt
    slots := []
    cmdl := 0#32
    cont := none
    advIdx := 0
    advLeft := 0
    runTotal := 0
    runDone := 0
    runCur := 0 }

end Sys2Proof.Machine
end

