-- ==== Sys2Proof/Machine/Control.lean ====
section
/-! DEFINITION. The control commands and the illegal words (43_control.md). -/

namespace Sys2Proof.Machine

/-- NOP's decode step does nothing; `complete` is next (R200). -/
def execNop (s : State) : Outcome := .next (continueWith .complete s)

/-- CLRERR's decode step clears the error record; `complete` is next (R201). -/
def execClrerr (s : State) : Outcome := .next (continueWith .complete (clearErrors s))

/-- A word of opcode 0x7: E_ILLEGAL with its opcode (R202). -/
def execIllegalOpc7 (_rest : BitVec 28) (s : State) : Outcome := .next (raiseIllegal 0x7#4 s)

/-- A word of opcode 0x8 to 0xF: E_ILLEGAL with its opcode, the word's bits [31:28] (R202). -/
def execIllegalOpc8F (rest : BitVec 31) (s : State) : Outcome :=
  .next (raiseIllegal (1#1 ++ rest.extractLsb' 28 3) s)

end Sys2Proof.Machine
end

