-- ==== Sys2Proof/Machine/PwmSequencer.lean ====
section
/-! DEFINITION. ADVANCE, DEENERGIZE and the channel configuration writes (41_pwm_sequencer.md). -/

namespace Sys2Proof.Machine

/-- Where ADVANCE goes with `left` phase-steps to make: the next phase pattern, or the de-energize (R150). -/
def advanceHead (left : Nat) : Cont := if 0 < left then .advPhase 0 else .deenergize 0

/-- ADVANCE's decode step: the motor check, the count check, then ADV_IDX and ADV_LEFT (R150). -/
def execAdvance (m : MotorId) (d : Dir) (cnt : Int) (s : State) : Outcome :=
  if s.motorOk m then
    if cnt < 0 then .next (raiseOperand .invalidArg 0x1#4 m s)
    else
      .next (continueWith (advanceHead cnt.toNat)
        { s with advIdx := startIndex d (s.tableLen m), advLeft := cnt.toNat })
  else .next (raiseOperand .noMotor 0x1#4 m s)

/-- DEENERGIZE's decode step: the motor check, then the all-zero pattern (R156). -/
def execDeenergize (m : MotorId) (s : State) : Outcome :=
  if s.motorOk m then .next (continueWith (.deenergize 0) s)
  else .next (raiseOperand .noMotor 0x2#4 m s)

/-- The step of ADVANCE that writes pin `j` of the phase pattern at ADV_IDX (R150, R142). -/
def advancePhaseStep (j : Fin 4) (s : State) : Outcome :=
  match s.pattern s.cmdMotor s.advIdx with
  | none => .fault .phaseIndexOutOfRange
  | some p =>
    writePin { motor := s.cmdMotor, pat := p, deen := false, slot := none } j
      (fun t => .next (continueWith (if j = 3 then .advDwell else .advPhase (j + 1)) t)) s

/-- ADVANCE's dwell step, with ADV_IDX and ADV_LEFT updated in it (R150). -/
def advanceDwellStep (s : State) : Outcome :=
  .next (continueWith (advanceHead (s.advLeft - 1))
    { dwell s.cmdMotor s with
      advIdx := nextIndex s.advIdx s.cmdDir (s.tableLen s.cmdMotor), advLeft := s.advLeft - 1 })

/-- The step of ADVANCE or DEENERGIZE that writes pin `j` of the all-zero pattern (R150, R156, R142). -/
def deenergizeStep (j : Fin 4) (s : State) : Outcome :=
  writePin { motor := s.cmdMotor, pat := 0#4, deen := true, slot := none } j
    (fun t => .next (continueWith (if j = 3 then .complete else .deenergize (j + 1)) t)) s

/-- WR_CH_CTRL: VALID <- v[0], MODE <- v[1], v[31:2] ignored (R157). -/
def execWrChCtrl (m : MotorId) (v : Word) (s : State) : Outcome :=
  .next (writeChannel m
    (fun c => { c with valid := v.getLsbD 0, mode := if v.getLsbD 1 then .full else .half }) s)

/-- WR_CH_PINS: PINi <- v[8i+7:8i] (R158). -/
def execWrChPins (m : MotorId) (v : Word) (s : State) : Outcome :=
  .next (writeChannel m
    (fun c => { c with
      pin0 := v.extractLsb' 0 8, pin1 := v.extractLsb' 8 8, pin2 := v.extractLsb' 16 8, pin3 := v.extractLsb' 24 8 }) s)

/-- WR_CH_DELAY: DELAY <- v (R159). -/
def execWrChDelay (m : MotorId) (v : Word) (s : State) : Outcome :=
  .next (writeChannel m (fun c => { c with delay := v }) s)

end Sys2Proof.Machine
end

