-- ==== Sys2Proof/Machine/StepScheduler.lean ====
section
/-! DEFINITION. LOAD, CLEAR and RUN (42_step_scheduler.md). -/

namespace Sys2Proof.Machine

/-- LOAD's decode step: the motor, count and capacity checks in that order, then the slot is appended (R170). -/
def execLoad (m : MotorId) (d : Dir) (cnt : Int) (s : State) : Outcome :=
  if s.motorOk m then
    if cnt < 0 then .next (raiseOperand .invalidArg 0x3#4 m s)
    else if s.listLen < s.cfg.nslot then
      .next (continueWith .complete
        { s with slots := s.slots ++ [{ motor := m, dir := d, remaining := cnt.toNat, idx := 0 }] })
    else .next (raiseOperand .listFull 0x3#4 m s)
  else .next (raiseOperand .noMotor 0x3#4 m s)

/-- CLEAR's decode step: the list is emptied (R172). -/
def execClear (s : State) : Outcome := .next (continueWith .complete (clearList s))

/-- RUN's initialisation: every slot at the start of its traversal, RUN_TOTAL, RUN_DONE and RUN_CUR (R174, R175). -/
def startRun (s : State) : State :=
  { s with
    slots := s.slots.map s.startSlot, runTotal := totalRemaining s.slots, runDone := 0, runCur := 0 }

/-- RUN's decode step: every loaded slot's motor is checked, the first failing one raises E_NOMOTOR; else the run starts
(R174). -/
def execRun (s : State) : Outcome :=
  match firstBadSlot s 0 s.slots with
  | some (n, m) => .next (raise .noMotor { opc := 0x4#4, motor := m, slot := BitVec.ofNat 4 n } true s)
  | none => runHead (startRun s)

/-- The step of RUN that writes pin `j` of the phase pattern of the slot at RUN_CUR (R174). -/
def runPhaseStep (j : Fin 4) (s : State) : Outcome :=
  match s.slots[s.runCur]? with
  | none => .fault .noActiveSlot
  | some sl =>
    match s.pattern sl.motor sl.idx with
    | none => .fault .phaseIndexOutOfRange
    | some p =>
      writePin { motor := sl.motor, pat := p, deen := false, slot := some s.runCur } j
        (fun t => .next (continueWith (if j = 3 then .runDwell else .runPhase (j + 1)) t)) s

/-- RUN's dwell step with the updates in it; then the end of the slot's burst, or the next visit (R174, R179). -/
def runDwellStep (s : State) : Outcome :=
  match s.slots[s.runCur]? with
  | none => .fault .noActiveSlot
  | some sl =>
    let t : State :=
      { dwell sl.motor s with slots := s.slots.set s.runCur (s.steppedSlot sl), runDone := s.runDone + 1 }
    if (s.steppedSlot sl).remaining = 0 then .next (continueWith (.runDeenergize 0) t)
    else runHead (advanceCursor t)

/-- The step of RUN that writes pin `j` of the all-zero pattern at the end of a slot's burst; after the last one, the
next visit (R174, R179). -/
def runDeenergizeStep (j : Fin 4) (s : State) : Outcome :=
  match s.slots[s.runCur]? with
  | none => .fault .noActiveSlot
  | some sl =>
    writePin { motor := sl.motor, pat := 0#4, deen := true, slot := some s.runCur } j
      (fun t => if j = 3 then runHead (advanceCursor t) else .next (continueWith (.runDeenergize (j + 1)) t)) s

/-- RUN's final step: `ClearList(); complete` (R174, R178). -/
def runEndStep (s : State) : Outcome := .next (complete (clearList s))

end Sys2Proof.Machine
end

