-- ==== Sys2Proof/Machine/Dispatch.lean ====
section
/-! DEFINITION. One arm per constructor of Instr: its meaning. -/

namespace Sys2Proof.Machine

/-- The meaning of an instruction: of a command, its decode step (41_pwm_sequencer.md R141); of a configuration write,
the host step (30_encoding.md R103). -/
def exec (i : Instr) (s : State) : Host.Outcome State Fault Refusal :=
  match i with
  | .nop => Sys2Proof.Machine.execNop s
  | .advance m d cnt => Sys2Proof.Machine.execAdvance m d cnt s
  | .deenergize m => Sys2Proof.Machine.execDeenergize m s
  | .load m d cnt => Sys2Proof.Machine.execLoad m d cnt s
  | .run => Sys2Proof.Machine.execRun s
  | .clear => Sys2Proof.Machine.execClear s
  | .clrerr => Sys2Proof.Machine.execClrerr s
  | .illegalOpc7 rest => Sys2Proof.Machine.execIllegalOpc7 rest s
  | .illegalOpc8F rest => Sys2Proof.Machine.execIllegalOpc8F rest s
  | .wrChCtrl m v => Sys2Proof.Machine.execWrChCtrl m v s
  | .wrChPins m v => Sys2Proof.Machine.execWrChPins m v s
  | .wrChDelay m v => Sys2Proof.Machine.execWrChDelay m v s

end Sys2Proof.Machine
end

