-- ==== Sys2Proof/Machine/Agents.lean ====
section
/-! DEFINITION. The two agents' steps: the sequencer's and the host's (00_scope.md R5, R10). -/

namespace Sys2Proof.Machine

/-- The decode step of the accepted command (41_pwm_sequencer.md R141). A word the decoder refuses has a legal opcode
and a reserved bit set: E_ILLEGAL with opcode CMDL[31:28] (30_encoding.md R101, log 23). -/
def decodeStep (s : State) : Outcome :=
  match decodeCommand s.cmdl with
  | .ok i => exec i s
  | .error _ => .next (raiseIllegal s.cmdOpc s)

/-- The sequencer's next atomic step; none when it is idle, and then nothing happens (00_scope.md R10). -/
def sequencerStep (s : State) : Outcome :=
  match s.cont with
  | none => .next s
  | some .decode => decodeStep s
  | some (.advPhase j) => advancePhaseStep j s
  | some .advDwell => advanceDwellStep s
  | some (.deenergize j) => deenergizeStep j s
  | some (.runPhase j) => runPhaseStep j s
  | some .runDwell => runDwellStep s
  | some (.runDeenergize j) => runDeenergizeStep j s
  | some .runEnd => runEndStep s
  | some .complete => .next (complete s)

/-- An admitted write (20_memory.md R62 to R65): CMD takes a command, a CH_* offset is its configuration instruction,
and every other offset, read-only or reserved, ignores it. -/
def admittedWrite (off : Nat) (v : Word) (s : State) : Outcome :=
  if off = 0x000 then .next (submit v s)
  else
    match decodeChannelWrite off v with
    | some i => exec i s
    | none => .next s

/-- A host write: answered `ok` if admitted, whether it takes effect or is dropped (log 7), else `buserr` with no other
effect (20_memory.md R60, R68). -/
def hostWrite (width off : Nat) (v : Word) (s : State) : Outcome :=
  if admitted width off then admittedWrite off v (answer .ok s) else .next (answer .busError s)

/-- One host step (00_scope.md R10, 60_exceptions.md R247, 70_reset_and_hazards.md R261). -/
def hostStep (op : HostOp) (s : State) : Outcome :=
  match op with
  | .regRead width off => .next (hostRead width off s)
  | .regWrite width off v => hostWrite width off v s
  | .setOutEn p b => .next (s.setOutEnabled p b)
  | .setLevel p b => .next (s.setPinLevel p b)
  | .reset => .next (resetBlock s)

/-- The `wait` poll (30_encoding.md R107): read STATUS; while BUSY = 1 the sequencer takes a step and the poll is made
again (log 8). -/
def waitStep (s : State) : Outcome :=
  if s.busy then .next { hostRead 32 0x004 s with agenda := .sequencer :: .wait :: s.agenda }
  else .next (hostRead 32 0x004 s)

/-- The state in which a table word is the next thing the machine runs (log 5): a command word stands accepted in CMDL
with the sequencer to move, a configuration write is the host's next access. -/
def placeTableWord (s : State) (nbits w : Nat) : State :=
  if (busWriteOfTableWord nbits w).off = 0 then
    { s with
      cmdl := (busWriteOfTableWord nbits w).v, busy := true, cont := some .decode, agenda := .sequencer :: s.agenda }
  else
    { s with
      agenda :=
        .host (.regWrite 32 (busWriteOfTableWord nbits w).off (busWriteOfTableWord nbits w).v) :: s.agenda }

end Sys2Proof.Machine
end

