-- ==== Sys2Proof/Machine/Step.lean ====
section
/-! DEFINITION. One step of the machine, and where the host places an instruction. -/

namespace Sys2Proof.Machine

/-- One step (00_scope.md R10): the agent whose turn it is moves. With no turn left it is the sequencer's (log 4). -/
def step (s : State) : Host.Outcome State Fault Refusal :=
  match s.agenda with
  | [] => sequencerStep s
  | .sequencer :: rest => sequencerStep { s with agenda := rest }
  | .host op :: rest => hostStep op { s with agenda := rest }
  | .wait :: rest => waitStep { s with agenda := rest }

/-- `s` with the instruction of a table word placed so that the very next step runs it (log 5). -/
def State.withFetchWord (s : State) (nbits w : Nat) : State := placeTableWord s nbits w

end Sys2Proof.Machine
end

