-- ==== Sys2Proof/Machine/Assembler.lean ====
section
/-! DEFINITION. The host's assembly statements and pseudo-instructions, as agenda turns (30_encoding.md R105 to R112). -/

namespace Sys2Proof.Machine

/-- A register as the syntax names it (30_encoding.md R106). -/
inductive AsmReg where
  | cmd
  | status
  | errinfo
  | params
  | chCtrl (m : MotorId)
  | chPins (m : MotorId)
  | chDelay (m : MotorId)
  | slot (n : Nat)
  /-- A hex offset. -/
  | offset (off : Nat)
deriving DecidableEq, Repr

/-- `offset(<reg>)` (30_encoding.md R106, 20_memory.md R62). -/
def regOffset : AsmReg → Nat
  | .cmd => 0x000
  | .status => 0x004
  | .errinfo => 0x008
  | .params => 0x00C
  | .chCtrl m => channelOffset 0x100 m
  | .chPins m => channelOffset 0x104 m
  | .chDelay m => channelOffset 0x108 m
  | .slot n => 0x200 + 4 * n
  | .offset off => off

/-- One item of a `runlist`: motor, direction, count (30_encoding.md R112). -/
structure ListItem where
  motor : MotorId
  dir : Dir
  count : Int
deriving DecidableEq, Repr

/-- A statement (30_encoding.md R105 to R112). -/
inductive Stmt where
  | nop
  | advance (m : MotorId) (d : Dir) (cnt : Int)
  | deenergize (m : MotorId)
  | load (m : MotorId) (d : Dir) (cnt : Int)
  | run
  | clear
  | clrerr
  /-- `wr <reg>, <value>` (R106). -/
  | wr (r : AsmReg) (v : Word)
  /-- `rd <reg>` (R106). -/
  | rd (r : AsmReg)
  /-- `wait` (R107). -/
  | wait
  /-- `idle <m>` (R108). -/
  | idle (m : MotorId)
  /-- `config <m>, <mode>, <p0>, <p1>, <p2>, <p3>, <delay>` (R109). -/
  | config (m : MotorId) (mode : Mode) (p0 p1 p2 p3 : PinId) (delay : Word)
  /-- `release <m>` (R110). -/
  | release (m : MotorId)
  /-- `move <m>, <dir>, <count>` (R111). -/
  | move (m : MotorId) (d : Dir) (cnt : Int)
  /-- `runlist (<m1>,<d1>,<k1>), ...` (R112). -/
  | runlist (items : List ListItem)
deriving DecidableEq, Repr

/-- A 32-bit host write. -/
def wrTurn (off : Nat) (v : Word) : Turn := .host (.regWrite 32 off v)

/-- "Each command assembles to one `wr CMD, <word>`" (30_encoding.md R105). -/
def commandTurn (i : Instr) : Turn := wrTurn (encode i).off (encode i).v

/-- The turns of the loads of a `runlist`, each followed by `wait` (30_encoding.md R112). -/
def loadTurns : List ListItem → List Turn
  | [] => []
  | x :: rest => commandTurn (.load x.motor x.dir x.count) :: .wait :: loadTurns rest

/-- What a statement makes the host do, in order; no sequencer turn stands between its accesses (log 27). -/
def Stmt.expand : Stmt → List Turn
  | .nop => [commandTurn .nop]
  | .advance m d cnt => [commandTurn (.advance m d cnt)]
  | .deenergize m => [commandTurn (.deenergize m)]
  | .load m d cnt => [commandTurn (.load m d cnt)]
  | .run => [commandTurn .run]
  | .clear => [commandTurn .clear]
  | .clrerr => [commandTurn .clrerr]
  | .wr r v => [wrTurn (regOffset r) v]
  | .rd r => [.host (.regRead 32 (regOffset r))]
  | .wait => [.wait]
  | .idle m => [commandTurn (.deenergize m)]
  | .config m mode p0 p1 p2 p3 delay =>
    [ wrTurn (regOffset (.chPins m)) (packed (p3 ++ p2 ++ p1 ++ p0)),
      wrTurn (regOffset (.chDelay m)) delay,
      wrTurn (regOffset (.chCtrl m)) (packed (0#30 ++ modeBit mode ++ 1#1)) ]
  | .release m => [wrTurn (regOffset (.chCtrl m)) 0#32]
  | .move m d cnt => [commandTurn (.advance m d cnt), .wait]
  | .runlist items => [commandTurn .clear, .wait] ++ loadTurns items ++ [commandTurn .run, .wait]

/-- A program's turns, statement after statement. DESIGN CHOICE (log 27): 20_memory.md R71 lets any number of sequencer steps
fall between two host accesses; an assembled program puts none there, and only `wait` gives the sequencer steps. So a
command that follows another without `wait` is dropped with E_BUSY. -/
def assemble (p : List Stmt) : List Turn := p.flatMap Stmt.expand

/-! ## The text of a statement (30_encoding.md R105 to R112) -/

/-- A token of a line. -/
inductive Token where
  | word (cs : List Char)
  | comma
  | lparen
  | rparen
deriving DecidableEq, Repr

/-- The token of the characters gathered so far, latest first; none if there are none. -/
def flushWord (acc : List Char) : List Token :=
  match acc with
  | [] => []
  | _ :: _ => [.word acc.reverse]

/-- The tokens of a line; a semicolon starts a comment (R105). Spaces and tabs separate words (log 24). -/
def tokenize : List Char → List Char → List Token
  | acc, [] => flushWord acc
  | acc, c :: rest =>
    if c = ';' then flushWord acc
    else if c = ' ' ∨ c = '\t' then flushWord acc ++ tokenize [] rest
    else if c = ',' then flushWord acc ++ .comma :: tokenize [] rest
    else if c = '(' then flushWord acc ++ .lparen :: tokenize [] rest
    else if c = ')' then flushWord acc ++ .rparen :: tokenize [] rest
    else tokenize (c :: acc) rest

/-- The value of a digit in a base, if the character is one. -/
def digitValue (base : Nat) (c : Char) : Option Nat :=
  let n :=
    if '0'.toNat ≤ c.toNat ∧ c.toNat ≤ '9'.toNat then c.toNat - '0'.toNat
    else if 'a'.toNat ≤ c.toNat ∧ c.toNat ≤ 'f'.toNat then c.toNat - 'a'.toNat + 10
    else if 'A'.toNat ≤ c.toNat ∧ c.toNat ≤ 'F'.toNat then c.toNat - 'A'.toNat + 10
    else base
  if n < base then some n else none

/-- The number of a run of digits after `acc`. `_` separates the digits of a hex number (00_scope.md R7); DESIGN CHOICE
(log 24): only there, and each `_` stands between two digits, so that one at the end or beside another `_` is an error. -/
def digitsFrom (base : Nat) : Nat → List Char → Option Nat
  | acc, [] => some acc
  | acc, c :: rest =>
    if c = '_' ∧ base = 16 then
      match rest with
      | [] => none
      | d :: _ => if d = '_' then none else digitsFrom base acc rest
    else
      match digitValue base c with
      | some n => digitsFrom base (acc * base + n) rest
      | none => none

/-- A decimal number. DESIGN CHOICE (log 24): leading zeros are accepted, as in `007`, `m015` or `-0`. -/
def readDec : List Char → Option Nat
  | [] => none
  | c :: rest => digitsFrom 10 0 (c :: rest)

/-- A hex number `0x...`, its first character a digit, or a decimal one. -/
def readNat : List Char → Option Nat
  | '0' :: 'x' :: c :: rest => if c = '_' then none else digitsFrom 16 0 (c :: rest)
  | other => readDec other

/-- A number below a bound. -/
def below (bound : Nat) (n : Option Nat) : Option Nat := n.filter fun k => decide (k < bound)

/-- `<m>`: a decimal motor id 0 to 15, optionally written `m0` to `m15` (R105). -/
def readMotor (cs : List Char) : Option MotorId :=
  match cs with
  | 'm' :: rest => (below 16 (readDec rest)).map (BitVec.ofNat 4)
  | other => (below 16 (readDec other)).map (BitVec.ofNat 4)

/-- `<dir>`: `fwd` or `bwd` (R105). -/
def readDir (cs : List Char) : Option Dir :=
  if cs = ['f', 'w', 'd'] then some .forward else if cs = ['b', 'w', 'd'] then some .backward else none

/-- `<count>`: a decimal integer -32768 to 32767 (R105). -/
def readCount (cs : List Char) : Option Int :=
  match cs with
  | '-' :: rest => (below 32769 (readDec rest)).map fun n => -(n : Int)
  | other => (below 32768 (readDec other)).map fun n => (n : Int)

/-- `<mode>`: `half` or `full` (R109). -/
def readMode (cs : List Char) : Option Mode :=
  if cs = ['h', 'a', 'l', 'f'] then some .half else if cs = ['f', 'u', 'l', 'l'] then some .full else none

/-- `<pi>`: a pin id 0 to 255 (R109). -/
def readPin (cs : List Char) : Option PinId := (below 256 (readNat cs)).map (BitVec.ofNat 8)

/-- `<value>`, `<delay>`: a 32-bit hex or decimal word (R106, R109). -/
def readWord (cs : List Char) : Option Word := (below (2 ^ 32) (readNat cs)).map (BitVec.ofNat 32)

/-- A register without an index, or a hex offset (R106). -/
def readPlainReg (cs : List Char) : Option AsmReg :=
  if cs = ['C', 'M', 'D'] then some .cmd
  else if cs = ['S', 'T', 'A', 'T', 'U', 'S'] then some .status
  else if cs = ['E', 'R', 'R', 'I', 'N', 'F', 'O'] then some .errinfo
  else if cs = ['P', 'A', 'R', 'A', 'M', 'S'] then some .params
  else
    match cs with
    | '0' :: 'x' :: _ => (readNat cs).map .offset
    | _ => none

/-- A register with an index in brackets (R106). DESIGN CHOICE (log 24): the index of a CH_* register is read as a motor id
of R105, `0` to `15` or `m0` to `m15`; the index of SLOT is decimal. -/
def readIndexedReg (cs index : List Char) : Option AsmReg :=
  if cs = ['C', 'H', '_', 'C', 'T', 'R', 'L'] then (readMotor index).map .chCtrl
  else if cs = ['C', 'H', '_', 'P', 'I', 'N', 'S'] then (readMotor index).map .chPins
  else if cs = ['C', 'H', '_', 'D', 'E', 'L', 'A', 'Y'] then (readMotor index).map .chDelay
  else if cs = ['S', 'L', 'O', 'T'] then (below 16 (readDec index)).map .slot
  else none

/-- A `<m>, <dir>, <count>` operand list (R105). -/
def readMDC (m d k : List Char) : Option ListItem := do
  let motor ← readMotor m
  let dir ← readDir d
  let count ← readCount k
  pure { motor := motor, dir := dir, count := count }

/-- The items of a `runlist` (R112). -/
def readItems : List Token → Option (List ListItem)
  | [] => some []
  | [.lparen, .word m, .comma, .word d, .comma, .word k, .rparen] => (readMDC m d k).map fun x => [x]
  | .lparen :: .word m :: .comma :: .word d :: .comma :: .word k :: .rparen :: .comma :: rest =>
    match rest with
    | [] => none
    | _ :: _ => do
      let x ← readMDC m d k
      let xs ← readItems rest
      pure (x :: xs)
  | _ => none

/-- A statement without operands (R105, R107). -/
def readBare (cs : List Char) : Option Stmt :=
  if cs = ['n', 'o', 'p'] then some .nop
  else if cs = ['r', 'u', 'n'] then some .run
  else if cs = ['c', 'l', 'e', 'a', 'r'] then some .clear
  else if cs = ['c', 'l', 'r', 'e', 'r', 'r'] then some .clrerr
  else if cs = ['w', 'a', 'i', 't'] then some .wait
  else none

/-- A statement with one word as operand (R105, R106, R108, R110). -/
def readUnary (op arg : List Char) : Option Stmt :=
  if op = ['d', 'e', 'e', 'n', 'e', 'r', 'g', 'i', 'z', 'e'] then (readMotor arg).map .deenergize
  else if op = ['i', 'd', 'l', 'e'] then (readMotor arg).map .idle
  else if op = ['r', 'e', 'l', 'e', 'a', 's', 'e'] then (readMotor arg).map .release
  else if op = ['r', 'd'] then (readPlainReg arg).map .rd
  else none

/-- A statement with a motor, a direction and a count (R105, R111). -/
def readTernary (op m d k : List Char) : Option Stmt := do
  let x ← readMDC m d k
  if op = ['a', 'd', 'v', 'a', 'n', 'c', 'e'] then some (.advance x.motor x.dir x.count)
  else if op = ['l', 'o', 'a', 'd'] then some (.load x.motor x.dir x.count)
  else if op = ['m', 'o', 'v', 'e'] then some (.move x.motor x.dir x.count)
  else none

/-- `config`'s operands (R109). -/
def readConfig (m mode p0 p1 p2 p3 delay : List Char) : Option Stmt := do
  let m ← readMotor m
  let mode ← readMode mode
  let p0 ← readPin p0
  let p1 ← readPin p1
  let p2 ← readPin p2
  let p3 ← readPin p3
  let delay ← readWord delay
  pure (.config m mode p0 p1 p2 p3 delay)

/-- The statement of a line's tokens; none where they are no statement. -/
def readStmt : List Token → Option Stmt
  | [.word op] => if op = ['r', 'u', 'n', 'l', 'i', 's', 't'] then some (.runlist []) else readBare op
  | [.word op, .word a] => readUnary op a
  | [.word op, .word r, .lparen, .word n, .rparen] =>
    if op = ['r', 'd'] then (readIndexedReg r n).map .rd else none
  | [.word op, .word r, .comma, .word v] =>
    if op = ['w', 'r'] then do
      let r ← readPlainReg r
      let v ← readWord v
      pure (.wr r v)
    else none
  | [.word op, .word r, .lparen, .word n, .rparen, .comma, .word v] =>
    if op = ['w', 'r'] then do
      let r ← readIndexedReg r n
      let v ← readWord v
      pure (.wr r v)
    else none
  | [.word op, .word m, .comma, .word d, .comma, .word k] => readTernary op m d k
  | [.word op, .word m, .comma, .word mode, .comma, .word p0, .comma, .word p1, .comma, .word p2, .comma, .word p3,
      .comma, .word delay] =>
    if op = ['c', 'o', 'n', 'f', 'i', 'g'] then readConfig m mode p0 p1 p2 p3 delay else none
  | .word op :: rest => if op = ['r', 'u', 'n', 'l', 'i', 's', 't'] then (readItems rest).map .runlist else none
  | _ => none

/-- A line of source: some statement, an empty or comment line (`some none`), or an error. -/
def readLine (cs : List Char) : Option (Option Stmt) :=
  match tokenize [] cs with
  | [] => some none
  | t :: ts => (readStmt (t :: ts)).map some

end Sys2Proof.Machine
end

