-- ==== Sys2Proof/Safety.lean ====
section
/-! DEFINITION. What counts as a safe run, in the terms the statements use: the invariant, the closed forms of the
traces, illegal words, accepted commands. -/

namespace Sys2Proof.Machine

/-! ## The invariant -/

/-- A slot a RUN may visit: its motor exists and its index is inside its motor's table. -/
abbrev State.SlotReady (s : State) (sl : Slot) : Prop := s.motorOk sl.motor = true ∧ sl.idx < s.tableLen sl.motor

/-- What holds at every later step of a RUN (42_step_scheduler.md R174, R177): the command decoded as RUN, every slot
is ready, and RUN_DONE counts the decrements. -/
structure RunOk (s : State) : Prop where
  decoded : decodeCommand s.cmdl = .ok .run
  ready : ∀ sl ∈ s.slots, s.SlotReady sl
  counted : s.runDone + totalRemaining s.slots = s.runTotal

/-- What holds at the phase steps of an ADVANCE (41_pwm_sequencer.md R150). -/
structure AdvanceOk (s : State) : Prop where
  decoded : ∃ cnt : Int, 0 ≤ cnt ∧ decodeCommand s.cmdl = .ok (.advance s.cmdMotor s.cmdDir cnt)
  motor : s.motorOk s.cmdMotor = true
  inTable : s.advIdx < s.tableLen s.cmdMotor
  left : 0 < s.advLeft

/-- What holds at the de-energize writes of an ADVANCE or a DEENERGIZE (41_pwm_sequencer.md R150, R156). -/
structure DeenergizeOk (s : State) : Prop where
  decoded : (∃ cnt : Int, 0 ≤ cnt ∧ decodeCommand s.cmdl = .ok (.advance s.cmdMotor s.cmdDir cnt)) ∨
    decodeCommand s.cmdl = .ok (.deenergize s.cmdMotor)
  motor : s.motorOk s.cmdMotor = true

/-- What the sequencer's position promises about the rest of the state; a RUN never ends by `complete` alone
(42_step_scheduler.md R178). -/
def ContOk (s : State) : Prop :=
  match s.cont with
  | none => True
  | some .decode => True
  | some .complete => decodeCommand s.cmdl ≠ .ok .run
  | some (.advPhase _) => AdvanceOk s
  | some .advDwell => AdvanceOk s
  | some (.deenergize _) => DeenergizeOk s
  | some (.runPhase _) => RunOk s ∧ ∃ sl, s.slots[s.runCur]? = some sl ∧ 0 < sl.remaining
  | some .runDwell => RunOk s ∧ ∃ sl, s.slots[s.runCur]? = some sl ∧ 0 < sl.remaining
  | some (.runDeenergize _) => RunOk s ∧ ∃ sl, s.slots[s.runCur]? = some sl ∧ sl.remaining = 0
  | some .runEnd => RunOk s ∧ s.runDone = s.runTotal

/-- The invariant: the parameters are legal, BUSY says whether the sequencer has a next step, the list fits, every
counter fits the width 10_state.md gives it, absent channels are untouched, the error record is consistent, and the
continuation is sound. -/
structure StateInv (s : State) : Prop where
  cfg : ConfigOk s.cfg
  busy : s.busy = s.cont.isSome
  listFits : s.slots.length ≤ s.cfg.nslot
  slots : ∀ sl ∈ s.slots, sl.remaining ≤ 32767 ∧ sl.idx < 8
  absent : ∀ m : MotorId, s.cfg.nm ≤ m.toNat → s.chan m = Channel.unbuilt
  noError : s.err = false → s.errovf = false ∧ s.ecode = .none ∧ s.errinfo = 0#32
  someError : s.err = true → s.ecode ≠ .none
  errinfoReserved : s.errinfo.extractLsb' 12 4 = 0#4
  advIdx : s.advIdx < 8
  advLeft : s.advLeft ≤ 32767
  runTotal : s.runTotal < 2 ^ 20
  runDone : s.runDone ≤ s.runTotal
  runCur : s.runCur < 16
  cont : ContOk s

/-! ## Accepted commands and illegal words -/

/-- The word `w` has just been accepted and the sequencer is to decode it, with no host access in between
(41_pwm_sequencer.md R140). -/
structure Accepted (w : Word) (s : State) : Prop where
  cmdl : s.cmdl = w
  busy : s.busy = true
  cont : s.cont = some .decode
  agenda : s.agenda = []

/-- The words 43_control.md R202 calls illegal, in its own form. -/
def IllegalWord (w : Word) : Prop :=
  7 ≤ (opcField w).toNat ∨
  (((opcField w).toNat = 0 ∨ (opcField w).toNat = 4 ∨ (opcField w).toNat = 5 ∨ (opcField w).toNat = 6) ∧
    w.extractLsb' 0 28 ≠ 0#28) ∨
  (((opcField w).toNat = 1 ∨ (opcField w).toNat = 3) ∧ rsvField w ≠ 0#7) ∨
  ((opcField w).toNat = 2 ∧ w.extractLsb' 0 24 ≠ 0#24)

/-! ## Closed forms of the traces -/

/-- A pattern write: four PinWrite events in pin index order, pin `j` receiving bit `P[j]` (00_scope.md R9,
41_pwm_sequencer.md R142). -/
def patternEvents (c : Channel) (p : Pattern) : List Event :=
  [ .pinWrite c.pin0 (p.getLsbD 0), .pinWrite c.pin1 (p.getLsbD 1), .pinWrite c.pin2 (p.getLsbD 2),
    .pinWrite c.pin3 (p.getLsbD 3) ]

/-- The table index of the j-th phase-step of a traversal: `j mod L` forward, `L - 1 - (j mod L)` backward
(41_pwm_sequencer.md R151). -/
def indexAt (d : Dir) (len j : Nat) : Nat :=
  match d with
  | .forward => j % len
  | .backward => len - 1 - j % len

/-- Motor `m`'s table entry at an index, 0 outside the table. -/
def State.patternAt (s : State) (m : MotorId) (idx : Nat) : Pattern := (s.pattern m idx).getD 0#4

/-- One phase-step: a pattern write and its dwell (00_scope.md R11). -/
def phaseEvents (s : State) (m : MotorId) (idx : Nat) : List Event :=
  patternEvents (s.chan m) (s.patternAt m idx) ++ [.dwell m (s.chan m).delay]

/-- The de-energize of motor `m`. -/
def deenergizeEvents (s : State) (m : MotorId) : List Event := patternEvents (s.chan m) 0#4

/-- ADVANCE's events: `cnt` phase-steps in the order of R151, then the de-energize (41_pwm_sequencer.md R151, R152). -/
def advanceEvents (s : State) (m : MotorId) (d : Dir) (cnt : Nat) : List Event :=
  (List.range cnt).flatMap (fun j => phaseEvents s m (indexAt d (s.tableLen m) j)) ++ deenergizeEvents s m

/-- Slot `sl`'s events in round `r`, counted from 0 (42_step_scheduler.md R180). -/
def visitEvents (s : State) (sl : Slot) (r : Nat) : List Event :=
  if r < sl.remaining then
    phaseEvents s sl.motor (indexAt sl.dir (s.tableLen sl.motor) r) ++
      (if sl.remaining = r + 1 then deenergizeEvents s sl.motor else [])
  else []

/-- The number of rounds, `max_s(REMAINING_s)` (42_step_scheduler.md R180). -/
def roundCount (slots : List Slot) : Nat := (slots.map Slot.remaining).foldr max 0

/-- The number of slots with REMAINING > 0 (42_step_scheduler.md R182). -/
def activeCount (slots : List Slot) : Nat := slots.countP fun sl => decide (0 < sl.remaining)

/-- RUN's events: round after round, in each round slot after slot in load order (42_step_scheduler.md R180). -/
def runEvents (s : State) : List Event :=
  (List.range (roundCount s.slots)).flatMap fun r => s.slots.flatMap fun sl => visitEvents s sl r

/-! ## What a trace does to the pins -/

/-- The level an event leaves: a PinWrite sets its pin (60_exceptions.md R246). -/
def playEvent (level : Vector Bool 256) : Event → Vector Bool 256
  | .pinWrite p high => level.set p.toNat high (by have := p.isLt; omega)
  | .dwell _ _ => level

/-- The levels a list of events leaves, in order (20_memory.md R72). -/
def playEvents (level : Vector Bool 256) (evs : List Event) : Vector Bool 256 := evs.foldl playEvent level

/-- The pins a list of events writes, in order. -/
def pinsWritten (evs : List Event) : List PinId :=
  evs.filterMap fun
    | .pinWrite p _ => some p
    | .dwell _ _ => none

/-- The host accepts every write of these events: under `enable_bit` the pins are enabled, under `oracle` the free
answers it will give are `ok` (60_exceptions.md R246). -/
def AllAccepted (s : State) (evs : List Event) : Prop :=
  match s.cfg.hostModel with
  | .enableBit => ∀ p ∈ pinsWritten evs, s.outEnabled p = true
  | .oracle => ∀ k, k < (pinsWritten evs).length → Config.hostAnswer (s.draws + k) = true

/-- What a command leaves alone: the parameters, the error record, the channels, OUT_EN, CMDL, the answers and the
agenda. -/
structure CommandFrame (s t : State) : Prop where
  cfg : t.cfg = s.cfg
  err : t.err = s.err
  errovf : t.errovf = s.errovf
  ecode : t.ecode = s.ecode
  errinfo : t.errinfo = s.errinfo
  chans : t.chans = s.chans
  outEn : t.outEn = s.outEn
  cmdl : t.cmdl = s.cmdl
  answers : t.answers = s.answers
  agenda : t.agenda = s.agenda

/-- `n` pin writes later, this many free answers have been drawn: none under `enable_bit` (log 3). -/
def drawsAfter (s : State) (n : Nat) : Nat :=
  match s.cfg.hostModel with
  | .enableBit => s.draws
  | .oracle => s.draws + n

/-- The command of `s` has completed in `t`, having produced the events `evs`: they are appended to the trace, the pins
stand as they leave them, the list is `slots`, and everything but the hidden counters is otherwise as it was. -/
structure CommandEffect (evs : List Event) (slots : List Slot) (s t : State) : Prop where
  trace : t.trace = s.trace ++ evs
  level : t.level = playEvents s.level evs
  draws : t.draws = drawsAfter s (pinsWritten evs).length
  slots : t.slots = slots
  frame : CommandFrame s t

/-! ## What an error leaves -/

/-- The state with an error recorded: the first one whole, a later one as ERROVF only (60_exceptions.md R228). -/
def recorded (code : ErrCode) (info : Word) (s : State) : State :=
  { s with
    err := true
    ecode := if s.err then s.ecode else code
    errinfo := if s.err then s.errinfo else info
    errovf := s.errovf || s.err }

/-- The state an error raised in a sequencer step leaves: recorded, the sequencer idle, the list as given
(60_exceptions.md R230). -/
def endedByError (code : ErrCode) (info : Word) (slots : List Slot) (s : State) : State :=
  { recorded code info s with busy := false, cont := none, slots := slots }

/-- The pin write the sequencer is about to make, and its pin index (41_pwm_sequencer.md R142). -/
def pendingWrite (s : State) : Option (PatternWrite × Fin 4) :=
  match s.cont with
  | some (.advPhase j) =>
    (s.pattern s.cmdMotor s.advIdx).map fun p => ({ motor := s.cmdMotor, pat := p, deen := false, slot := none }, j)
  | some (.deenergize j) => some ({ motor := s.cmdMotor, pat := 0#4, deen := true, slot := none }, j)
  | some (.runPhase j) =>
    s.slots[s.runCur]?.bind fun sl =>
      (s.pattern sl.motor sl.idx).map fun p => ({ motor := sl.motor, pat := p, deen := false, slot := some s.runCur }, j)
  | some (.runDeenergize j) =>
    s.slots[s.runCur]?.map fun sl => ({ motor := sl.motor, pat := 0#4, deen := true, slot := some s.runCur }, j)
  | none => none
  | some .decode => none
  | some .advDwell => none
  | some .runDwell => none
  | some .runEnd => none
  | some .complete => none

/-- The host's answer to the next pin write to `p` is `ok` (60_exceptions.md R246). -/
def NextWriteAccepted (s : State) (p : PinId) : Prop :=
  match s.cfg.hostModel with
  | .enableBit => s.outEnabled p = true
  | .oracle => Config.hostAnswer s.draws = true

/-! ## The end of a command -/

/-- From `s` the command ends after exactly `n` sequencer steps, in `t`: BUSY is 1 until then (70_reset_and_hazards.md
R291). -/
def EndsAfter (n : Nat) (s t : State) : Prop :=
  Sys2Proof.core.run n s = .next t ∧ t.busy = false ∧ t.cont = none ∧
    ∀ k, k < n → ∃ u : State, Sys2Proof.core.run k s = .next u ∧ u.busy = true

/-! ## Whose turn it is -/

/-- The sequencer moves next: it has the turn, or no turn is left (log 4). -/
def SequencerTurn (s : State) : Prop := s.agenda = [] ∨ s.agenda.head? = some .sequencer

/-- Two states that differ at most in the hidden counters of 10_state.md R34. -/
def SameButCounters (s t : State) : Prop :=
  t = { s with
    advIdx := t.advIdx, advLeft := t.advLeft, runTotal := t.runTotal, runDone := t.runDone, runCur := t.runCur }

end Sys2Proof.Machine
end

