-- ==== Sys2Proof/Certificates/Slice0/Obligations.lean ====
section
/-! DEFINITION. The statements for the provers. Each docstring names the rules of spec/ it rests on. -/

open Sys2Proof Sys2Proof.Machine

/-! ## Encoding -/

/-- 30_encoding.md R92 to R99, R103: decoding an encoded well-formed instruction gives it back. -/
def Obligations.DecodeOfEncode : Prop :=
  ∀ i : Instr, i.wf = true → decode (encode i) = .ok i

/-- 30_encoding.md R90, R99, R103: each register write that decodes has one meaning: it is the encoding of the
well-formed instruction it decodes to. -/
def Obligations.EncodeOfDecode : Prop :=
  ∀ (b : BusWrite) (i : Instr), decode b = .ok i → encode i = b ∧ i.wf = true

/-- 30_encoding.md R98: a word decodes to a command exactly when it meets the command's mask and match. -/
def Obligations.DecodeMeetsMaskMatch : Prop :=
  ∀ w : Word,
    (decodeCommand w = .ok .nop ↔ w &&& 0xFFFF_FFFF#32 = 0x0000_0000#32) ∧
    ((∃ m d c, decodeCommand w = .ok (.advance m d c)) ↔ w &&& 0xF07F_0000#32 = 0x1000_0000#32) ∧
    ((∃ m, decodeCommand w = .ok (.deenergize m)) ↔ w &&& 0xF0FF_FFFF#32 = 0x2000_0000#32) ∧
    ((∃ m d c, decodeCommand w = .ok (.load m d c)) ↔ w &&& 0xF07F_0000#32 = 0x3000_0000#32) ∧
    (decodeCommand w = .ok .run ↔ w &&& 0xFFFF_FFFF#32 = 0x4000_0000#32) ∧
    (decodeCommand w = .ok .clear ↔ w &&& 0xFFFF_FFFF#32 = 0x5000_0000#32) ∧
    (decodeCommand w = .ok .clrerr ↔ w &&& 0xFFFF_FFFF#32 = 0x6000_0000#32) ∧
    ((∃ r, decodeCommand w = .ok (.illegalOpc7 r)) ↔ w &&& 0xF000_0000#32 = 0x7000_0000#32) ∧
    ((∃ r, decodeCommand w = .ok (.illegalOpc8F r)) ↔ w &&& 0x8000_0000#32 = 0x8000_0000#32)

/-- 30_encoding.md R113: each assembling example, read as text, is the one write of its word to CMD, and the word decodes to
the instruction it stands for. -/
def Obligations.AssemblingExamples : Prop :=
  ∀ p ∈ [ ("nop", Instr.nop, 0x0000_0000#32), ("advance 0, fwd, 1", .advance 0#4 .forward 1, 0x1000_0001#32),
          ("advance 0, fwd, 0", .advance 0#4 .forward 0, 0x1000_0000#32),
          ("advance 1, bwd, 5", .advance 1#4 .backward 5, 0x1180_0005#32),
          ("advance 0, fwd, -1", .advance 0#4 .forward (-1), 0x1000_FFFF#32),
          ("advance 3, fwd, 32767", .advance 3#4 .forward 32767, 0x1300_7FFF#32),
          ("deenergize 1", .deenergize 1#4, 0x2100_0000#32), ("load 0, fwd, 3", .load 0#4 .forward 3, 0x3000_0003#32),
          ("load 1, fwd, 5", .load 1#4 .forward 5, 0x3100_0005#32),
          ("load 2, bwd, 8", .load 2#4 .backward 8, 0x3280_0008#32), ("run", .run, 0x4000_0000#32),
          ("clear", .clear, 0x5000_0000#32), ("clrerr", .clrerr, 0x6000_0000#32) ],
    (readLine p.1.toList).map (Option.map Stmt.expand) = some (some [wrTurn 0x000 p.2.2]) ∧
      decodeCommand p.2.2 = .ok p.2.1

/-- 30_encoding.md R103: a CH_* write is selected by `off & 0xF0F`, with channel `off[7:4]`, for the 12-bit offsets. -/
def Obligations.ChannelWriteSelectedByOffset : Prop :=
  ∀ (off : Nat) (v : Word), off < 0x1000 →
    (decodeChannelWrite off v = some (.wrChCtrl (BitVec.ofNat 4 (off >>> 4)) v) ↔ off &&& 0xF0F = 0x100) ∧
    (decodeChannelWrite off v = some (.wrChPins (BitVec.ofNat 4 (off >>> 4)) v) ↔ off &&& 0xF0F = 0x104) ∧
    (decodeChannelWrite off v = some (.wrChDelay (BitVec.ofNat 4 (off >>> 4)) v) ↔ off &&& 0xF0F = 0x108) ∧
    (decodeChannelWrite off v = none ↔ off &&& 0xF0F ≠ 0x100 ∧ off &&& 0xF0F ≠ 0x104 ∧ off &&& 0xF0F ≠ 0x108)

/-- 30_encoding.md R100, R101, 43_control.md R202: the decoder answers ILLEGAL for exactly the words R202 lists. -/
def Obligations.IllegalWordsDecodeIllegal : Prop :=
  ∀ w : Word, IllegalWord w ↔
    (decodeCommand w = .error .reservedBits ∨ (∃ r, decodeCommand w = .ok (.illegalOpc7 r)) ∨
      ∃ r, decodeCommand w = .ok (.illegalOpc8F r))

/-! ## A step runs the decoded instruction -/

/-- 41_pwm_sequencer.md R141: the sequencer's first step of an accepted command is the meaning of the instruction its
word decodes to, in the state without the turn it used. -/
def Obligations.StepRunsAcceptedCommand : Prop :=
  ∀ (s : State) (i : Instr), s.cont = some .decode → decodeCommand s.cmdl = .ok i →
    (s.agenda = [] → step s = exec i s) ∧
    ∀ rest, s.agenda = .sequencer :: rest → step s = exec i { s with agenda := rest }

/-- 30_encoding.md R103, 20_memory.md R60: a 32-bit host write to a CH_* offset is the meaning of the configuration
write it decodes to, in the state without the turn it used and with the access answered `ok`. That
every admitted write is answered `ok`, a dropped one (block busy) and an ignored one (channel absent) among them, is the
model's inference (log 7, DEDUCED). -/
def Obligations.StepRunsChannelWrite : Prop :=
  ∀ (s : State) (off : Nat) (v : Word) (i : Instr) (rest : List Turn),
    s.agenda = .host (.regWrite 32 off v) :: rest → decodeChannelWrite off v = some i →
    step s = exec i { s with agenda := rest, answers := s.answers ++ [.ok] }

/-! ## Control commands and illegal words -/

/-- 43_control.md R200: NOP does nothing: its decode step only moves on to `complete`, and the accepted command ends
after exactly 2 sequencer steps with only BUSY changed. -/
def Obligations.NopOnlyCompletes : Prop :=
  ∀ s : State,
    exec .nop s = .next { s with cont := some .complete } ∧
    (Accepted 0x0000_0000#32 s → EndsAfter 2 s { s with busy := false, cont := none })

/-- 43_control.md R201: CLRERR clears ERR, ERROVF, ECODE and ERRINFO and nothing else, in 2 sequencer steps. -/
def Obligations.ClrerrClearsErrorRecord : Prop :=
  ∀ s : State,
    exec .clrerr s =
      .next { s with err := false, errovf := false, ecode := .none, errinfo := 0#32, cont := some .complete } ∧
    (Accepted 0x6000_0000#32 s → EndsAfter 2 s
      { s with err := false, errovf := false, ecode := .none, errinfo := 0#32, busy := false, cont := none })

/-- 43_control.md R202, 60_exceptions.md R221: the two illegal opcode ranges raise E_ILLEGAL with their opcode in
ERRINFO.OPC, and have no other effect. -/
def Obligations.IllegalOpcodesRaise : Prop :=
  ∀ s : State,
    (∀ rest : BitVec 28, exec (.illegalOpc7 rest) s = .next (endedByError .illegal 0x0000_0007#32 s.slots s)) ∧
    (∀ rest : BitVec 31, exec (.illegalOpc8F rest) s =
      .next (endedByError .illegal (packed (0#28 ++ (1#1 ++ rest.extractLsb' 28 3))) s.slots s))

/-- 60_exceptions.md R221, 43_control.md R202: an accepted illegal word, a legal opcode with a reserved bit set among
them, ends in its decode step with E_ILLEGAL, ERRINFO.OPC the word's bits [31:28], and no other effect. -/
def Obligations.AcceptedIllegalWordRaises : Prop :=
  ∀ (w : Word) (s : State), IllegalWord w → Accepted w s →
    step s = .next (endedByError .illegal (packed (0#28 ++ opcField w)) s.slots s)

/-! ## ADVANCE and DEENERGIZE -/

/-- 41_pwm_sequencer.md R150: ADVANCE's decode step: the motor check, then the count check, then ADV_IDX at the start of
the traversal and ADV_LEFT the count; nothing else changes. -/
def Obligations.AdvanceDecodeStep : Prop :=
  ∀ (m : MotorId) (d : Dir) (cnt : Int) (s : State),
    (s.motorOk m = false →
      exec (.advance m d cnt) s = .next (endedByError .noMotor (packed (0#24 ++ m ++ 0x1#4)) s.slots s)) ∧
    (s.motorOk m = true → cnt < 0 →
      exec (.advance m d cnt) s = .next (endedByError .invalidArg (packed (0#24 ++ m ++ 0x1#4)) s.slots s)) ∧
    (s.motorOk m = true → 0 ≤ cnt →
      exec (.advance m d cnt) s = .next { s with
        advIdx := startIndex d (s.tableLen m)
        advLeft := cnt.toNat
        cont := some (if cnt = 0 then .deenergize 0 else .advPhase 0) })

/-- 41_pwm_sequencer.md R150, R151, R152, 70_reset_and_hazards.md R291: an accepted ADVANCE of count `cnt >= 0` whose pin
writes the host accepts completes after exactly `5*cnt + 6` sequencer steps, having produced its `cnt` phase-steps in
the order of R151 and the trailing de-energize, and changed nothing else but the hidden counters. -/
def Obligations.AdvanceCompletes : Prop :=
  ∀ (m : MotorId) (d : Dir) (cnt : Int) (s : State), 0 ≤ cnt → cnt ≤ 32767 →
    Accepted (commandWord (.advance m d cnt)) s → s.motorOk m = true → AllAccepted s (advanceEvents s m d cnt.toNat) →
    ∃ t, EndsAfter (5 * cnt.toNat + 6) s t ∧ CommandEffect (advanceEvents s m d cnt.toNat) s.slots s t

/-- 41_pwm_sequencer.md R156: DEENERGIZE's decode step. -/
def Obligations.DeenergizeDecodeStep : Prop :=
  ∀ (m : MotorId) (s : State),
    (s.motorOk m = false →
      exec (.deenergize m) s = .next (endedByError .noMotor (packed (0#24 ++ m ++ 0x2#4)) s.slots s)) ∧
    (s.motorOk m = true → exec (.deenergize m) s = .next { s with cont := some (.deenergize 0) })

/-- 41_pwm_sequencer.md R156, 70_reset_and_hazards.md R291: an accepted DEENERGIZE whose pin writes the host accepts writes
the all-zero pattern, without a dwell, and completes after exactly 6 sequencer steps. -/
def Obligations.DeenergizeCompletes : Prop :=
  ∀ (m : MotorId) (s : State), Accepted (commandWord (.deenergize m)) s → s.motorOk m = true →
    AllAccepted s (deenergizeEvents s m) →
    ∃ t, EndsAfter 6 s t ∧ CommandEffect (deenergizeEvents s m) s.slots s t

/-- 41_pwm_sequencer.md R143, R150: ADVANCE's dwell step records Dwell(m, DELAY), moves ADV_IDX by Next and decrements
ADV_LEFT in the same step; no pin is written and nothing else changes. -/
def Obligations.AdvanceDwellStep : Prop :=
  ∀ s : State, s.cont = some .advDwell → s.agenda = [] →
    step s = .next { s with
      trace := s.trace ++ [.dwell s.cmdMotor (s.chan s.cmdMotor).delay]
      advIdx := nextIndex s.advIdx s.cmdDir (s.tableLen s.cmdMotor)
      advLeft := s.advLeft - 1
      cont := some (if 1 < s.advLeft then .advPhase 0 else .deenergize 0) }

/-! ## Pin writes -/

/-- 60_exceptions.md R246, 41_pwm_sequencer.md R142: a pin write the host accepts sets exactly that pin to the pattern's
bit, records the PinWrite event, and the command goes on: the error record, the channels and the other pins stay. -/
def Obligations.AcceptedWriteSetsOnePin : Prop :=
  ∀ (s : State) (w : PatternWrite) (j : Fin 4), StateInv s → s.agenda = [] → pendingWrite s = some (w, j) →
    NextWriteAccepted s ((s.chan w.motor).pin j) →
    ∃ t, step s = .next t ∧
      CommandEffect [.pinWrite ((s.chan w.motor).pin j) (w.pat.getLsbD j.val)] s.slots s t ∧ t.busy = true ∧
      t.pinLevel ((s.chan w.motor).pin j) = w.pat.getLsbD j.val ∧
      ∀ p : PinId, p ≠ (s.chan w.motor).pin j → t.pinLevel p = s.pinLevel p

/-- 60_exceptions.md R226, R230, 41_pwm_sequencer.md R142, 42_step_scheduler.md R188: a pin write the host rejects changes
no pin and makes no event; E_PIN_FAULT is recorded with the write's pin index, pin id, pattern, motor and slot, the
command ends, and the list is cleared exactly if the command is RUN. That a rejected write makes no
event is the model's inference (log 6, DEDUCED) from 95_test_vectors.md, Conventions, against the wording of 00_scope.md
R8. -/
def Obligations.RejectedWriteEndsCommand : Prop :=
  ∀ (s : State) (w : PatternWrite) (j : Fin 4), s.agenda = [] → pendingWrite s = some (w, j) →
    ¬ NextWriteAccepted s ((s.chan w.motor).pin j) →
    step s = .next { endedByError .pinFault
      (packed (BitVec.ofNat 4 (w.slot.getD 0) ++ w.pat ++ (s.chan w.motor).pin j ++ 0#5 ++ BitVec.ofBool w.deen ++
        BitVec.ofNat 2 j.val ++ w.motor ++ opcField s.cmdl))
      (if w.slot = none then s.slots else []) s with draws := drawsAfter s 1 }

/-! ## LOAD and CLEAR -/

/-- 42_step_scheduler.md R170, R171: LOAD's decode step: the motor, count and capacity checks in this order, each leaving
the list unchanged; else the slot is appended with IDX = 0 and LISTLEN grows by one; the accepted command then ends
after exactly 2 sequencer steps. -/
def Obligations.LoadAppendsOneSlot : Prop :=
  ∀ (m : MotorId) (d : Dir) (cnt : Int) (s : State),
    (s.motorOk m = false →
      exec (.load m d cnt) s = .next (endedByError .noMotor (packed (0#24 ++ m ++ 0x3#4)) s.slots s)) ∧
    (s.motorOk m = true → cnt < 0 →
      exec (.load m d cnt) s = .next (endedByError .invalidArg (packed (0#24 ++ m ++ 0x3#4)) s.slots s)) ∧
    (s.motorOk m = true → 0 ≤ cnt → s.listLen = s.cfg.nslot →
      exec (.load m d cnt) s = .next (endedByError .listFull (packed (0#24 ++ m ++ 0x3#4)) s.slots s)) ∧
    (s.motorOk m = true → 0 ≤ cnt → s.listLen < s.cfg.nslot →
      exec (.load m d cnt) s = .next { s with
        slots := s.slots ++ [{ motor := m, dir := d, remaining := cnt.toNat, idx := 0 }]
        cont := some .complete } ∧
      (cnt ≤ 32767 → Accepted (commandWord (.load m d cnt)) s → EndsAfter 2 s { s with
        slots := s.slots ++ [{ motor := m, dir := d, remaining := cnt.toNat, idx := 0 }]
        busy := false
        cont := none }))

/-- 42_step_scheduler.md R172: CLEAR empties the list and changes nothing else, in 2 sequencer steps. -/
def Obligations.ClearEmptiesList : Prop :=
  ∀ s : State,
    exec .clear s = .next { s with slots := [], cont := some .complete } ∧
    (Accepted 0x5000_0000#32 s → EndsAfter 2 s { s with slots := [], busy := false, cont := none })

/-! ## RUN -/

/-- 42_step_scheduler.md R174, R178, 60_exceptions.md R223: RUN's decode step, when some loaded slot's motor fails the
test, raises E_NOMOTOR for the first such slot and clears the list, with no pin activity. -/
def Obligations.RunRejectsFirstBadSlot : Prop :=
  ∀ (s : State) (n : Nat) (sl : Slot), s.slots[n]? = some sl → s.motorOk sl.motor = false →
    (∀ (k : Nat) (sk : Slot), k < n → s.slots[k]? = some sk → s.motorOk sk.motor = true) →
    exec .run s = .next (endedByError .noMotor (packed (BitVec.ofNat 4 n ++ 0#20 ++ sl.motor ++ 0x4#4)) [] s)

/-- 42_step_scheduler.md R174, R175, R177: RUN's decode step, when every loaded slot's motor passes, sets each slot's IDX to
the start of its own motor's table, RUN_TOTAL to the sum of the counts and RUN_DONE to 0; with nothing to do it goes to
the final step, else to the first phase pattern of the first slot with work; nothing else changes. -/
def Obligations.RunStartsEverySlot : Prop :=
  ∀ s : State, (∀ sl ∈ s.slots, s.motorOk sl.motor = true) →
    ∃ t, exec .run s = .next t ∧
      t = { s with
        slots := s.slots.map (fun sl => { sl with idx := startIndex sl.dir (s.tableLen sl.motor) })
        runTotal := (s.slots.map Slot.remaining).sum
        runDone := 0
        runCur := t.runCur
        cont := t.cont } ∧
      ((s.slots.map Slot.remaining).sum = 0 → t.cont = some .runEnd) ∧
      (0 < (s.slots.map Slot.remaining).sum → t.cont = some (.runPhase 0) ∧
        (∃ sl, s.slots[t.runCur]? = some sl ∧ 0 < sl.remaining) ∧
        ∀ (k : Nat) (sk : Slot), k < t.runCur → s.slots[k]? = some sk → sk.remaining = 0)

/-- 42_step_scheduler.md R180, R177, R178, 70_reset_and_hazards.md R291: an accepted RUN whose motors all pass and whose pin
writes the host accepts completes after exactly `2 + 5*T + 4*n` sequencer steps, T the sum of the counts and n the
number of slots with work, having produced the closed form's events, and leaves the list empty. -/
def Obligations.RunCompletes : Prop :=
  ∀ s : State, Accepted 0x4000_0000#32 s → (∀ sl ∈ s.slots, s.motorOk sl.motor = true) → AllAccepted s (runEvents s) →
    ∃ t, EndsAfter (2 + 5 * totalRemaining s.slots + 4 * activeCount s.slots) s t ∧ CommandEffect (runEvents s) [] s t

/-- 42_step_scheduler.md R183, R184: RUN of a list with no work, the empty list among them, makes no event and ends after
its decode step and the final step. -/
def Obligations.RunWithoutWorkMakesNoEvent : Prop :=
  ∀ s : State, Accepted 0x4000_0000#32 s → (∀ sl ∈ s.slots, s.motorOk sl.motor = true ∧ sl.remaining = 0) →
    EndsAfter 2 s { s with slots := [], runTotal := 0, runDone := 0, runCur := 0, busy := false, cont := none }

/-- 42_step_scheduler.md R176, R179: after a slot's phase-step that leaves it work, the cursor goes round the list to the
next slot with work, in load order, skipping the finished ones; the dwell step records the event, steps the slot's
index and count, and writes no pin. After the step that leaves none, the slot's motor is de-energized first. -/
def Obligations.RunDwellStep : Prop :=
  ∀ (s : State) (sl : Slot), StateInv s → s.agenda = [] → s.cont = some .runDwell → s.slots[s.runCur]? = some sl →
    ∃ t, step s = .next t ∧
      t = { s with
        trace := s.trace ++ [.dwell sl.motor (s.chan sl.motor).delay]
        slots := s.slots.set s.runCur
          { sl with idx := nextIndex sl.idx sl.dir (s.tableLen sl.motor), remaining := sl.remaining - 1 }
        runDone := s.runDone + 1
        runCur := t.runCur
        cont := t.cont } ∧
      (sl.remaining = 1 → t.cont = some (.runDeenergize 0) ∧ t.runCur = s.runCur) ∧
      (1 < sl.remaining → t.cont = some (.runPhase 0) ∧
        ∃ k, 0 < k ∧ k ≤ s.slots.length ∧ t.runCur = (s.runCur + k) % s.slots.length ∧
          (∃ sn, t.slots[t.runCur]? = some sn ∧ 0 < sn.remaining) ∧
          ∀ (i : Nat) (si : Slot), 0 < i → i < k → t.slots[(s.runCur + i) % s.slots.length]? = some si →
            si.remaining = 0)

/-- 42_step_scheduler.md R182: a RUN's events are `4 * (RUN_TOTAL + #{s : c_s > 0})` PinWrites and RUN_TOTAL dwells; an
ADVANCE's are `4 * (cnt + 1)` PinWrites and `cnt` dwells (41_pwm_sequencer.md R152). -/
def Obligations.EventCounts : Prop :=
  ∀ s : State,
    (pinsWritten (runEvents s)).length = 4 * (totalRemaining s.slots + activeCount s.slots) ∧
    (runEvents s).length = 5 * totalRemaining s.slots + 4 * activeCount s.slots ∧
    ∀ (m : MotorId) (d : Dir) (cnt : Nat),
      (pinsWritten (advanceEvents s m d cnt)).length = 4 * (cnt + 1) ∧ (advanceEvents s m d cnt).length = 5 * cnt + 4

/-- 42_step_scheduler.md R182: a one-slot RUN of count k >= 1 has the events of `advance m, d, k`; of count 0 it has none,
while ADVANCE has one de-energize. -/
def Obligations.OneSlotRunIsAdvance : Prop :=
  ∀ (s : State) (m : MotorId) (d : Dir) (k i : Nat),
    s.slots = [{ motor := m, dir := d, remaining := k, idx := i }] →
    (1 ≤ k → runEvents s = advanceEvents s m d k) ∧
    (k = 0 → runEvents s = [] ∧ advanceEvents s m d k = deenergizeEvents s m)

/-! ## Command acceptance and channel configuration -/

/-- 41_pwm_sequencer.md R140, 60_exceptions.md R224: a host write to CMD is accepted when idle (CMDL takes the word, BUSY is
set, the decode step is next); while busy it is dropped and only E_BUSY is recorded, with the dropped word's opcode and
motor field. The answer `ok` to a dropped write is the model's inference (log 7, DEDUCED). -/
def Obligations.CommandAcceptedOrDropped : Prop :=
  ∀ (s : State) (w : Word) (rest : List Turn), s.agenda = .host (.regWrite 32 0x000 w) :: rest →
    (s.busy = false → step s = .next { s with
      agenda := rest, answers := s.answers ++ [.ok], cmdl := w, busy := true, cont := some .decode }) ∧
    (s.busy = true → step s = .next { recorded .busy (packed (0#24 ++ motorField w ++ opcField w)) s with
      agenda := rest, answers := s.answers ++ [.ok] })

/-- 41_pwm_sequencer.md R157, 20_memory.md R63, 60_exceptions.md R224: WR_CH_CTRL. Idle: VALID and MODE of channel m take
v[0] and v[1], the register then reads `v & 3`, and every other channel stays. Busy: only E_BUSY is recorded, with REGW
and the channel. A channel at or above NM: nothing changes. -/
def Obligations.WriteChCtrl : Prop :=
  ∀ (m : MotorId) (v : Word) (s : State),
    (m.toNat < s.cfg.nm → s.busy = false → ∃ t,
      exec (.wrChCtrl m v) s = .next t ∧
      t = s.setChan m { s.chan m with valid := v.getLsbD 0, mode := if v.getLsbD 1 then .full else .half } ∧
      readReg t (0x100 + 0x10 * m.toNat) = v &&& 3#32 ∧ ∀ k, k ≠ m → t.chan k = s.chan k) ∧
    (m.toNat < s.cfg.nm → s.busy = true →
      exec (.wrChCtrl m v) s = .next (recorded .busy (packed (0#20 ++ 1#1 ++ 0#3 ++ m ++ 0#4)) s)) ∧
    (s.cfg.nm ≤ m.toNat → exec (.wrChCtrl m v) s = .next s)

/-- 41_pwm_sequencer.md R158, 20_memory.md R63, 60_exceptions.md R224: WR_CH_PINS. Idle: PINi takes v[8i+7:8i], the register
then reads `v`, and every other channel and field stays. Busy and absent as for WR_CH_CTRL. -/
def Obligations.WriteChPins : Prop :=
  ∀ (m : MotorId) (v : Word) (s : State),
    (m.toNat < s.cfg.nm → s.busy = false → ∃ t,
      exec (.wrChPins m v) s = .next t ∧
      t = s.setChan m { s.chan m with
        pin0 := v.extractLsb' 0 8, pin1 := v.extractLsb' 8 8, pin2 := v.extractLsb' 16 8, pin3 := v.extractLsb' 24 8 } ∧
      readReg t (0x104 + 0x10 * m.toNat) = v ∧ ∀ k, k ≠ m → t.chan k = s.chan k) ∧
    (m.toNat < s.cfg.nm → s.busy = true →
      exec (.wrChPins m v) s = .next (recorded .busy (packed (0#20 ++ 1#1 ++ 0#3 ++ m ++ 0#4)) s)) ∧
    (s.cfg.nm ≤ m.toNat → exec (.wrChPins m v) s = .next s)

/-- 41_pwm_sequencer.md R159, 20_memory.md R63, 60_exceptions.md R224: WR_CH_DELAY. Idle: DELAY takes v, the register then
reads `v`, and every other channel and field stays. Busy and absent as for WR_CH_CTRL. -/
def Obligations.WriteChDelay : Prop :=
  ∀ (m : MotorId) (v : Word) (s : State),
    (m.toNat < s.cfg.nm → s.busy = false → ∃ t,
      exec (.wrChDelay m v) s = .next t ∧ t = s.setChan m { s.chan m with delay := v } ∧
      readReg t (0x108 + 0x10 * m.toNat) = v ∧ ∀ k, k ≠ m → t.chan k = s.chan k) ∧
    (m.toNat < s.cfg.nm → s.busy = true →
      exec (.wrChDelay m v) s = .next (recorded .busy (packed (0#20 ++ 1#1 ++ 0#3 ++ m ++ 0#4)) s)) ∧
    (s.cfg.nm ≤ m.toNat → exec (.wrChDelay m v) s = .next s)

/-! ## The register window -/

/-- 20_memory.md R68: an access of another width, at an offset that is not a multiple of 4, or outside the window is
answered `buserr` and changes nothing else. -/
def Obligations.RefusedAccessChangesNothing : Prop :=
  ∀ (s : State) (width off : Nat) (rest : List Turn), ¬ (width = 32 ∧ off % 4 = 0 ∧ off < 0x400) →
    (s.agenda = .host (.regRead width off) :: rest →
      step s = .next { s with agenda := rest, answers := s.answers ++ [.busError] }) ∧
    ∀ v : Word, s.agenda = .host (.regWrite width off v) :: rest →
      step s = .next { s with agenda := rest, answers := s.answers ++ [.busError] }

/-- 10_state.md R39, 20_memory.md R71: an admitted read is answered with the register's present value, busy or not, and
changes nothing else. -/
def Obligations.ReadHasNoSideEffect : Prop :=
  ∀ (s : State) (off : Nat) (rest : List Turn), off % 4 = 0 → off < 0x400 →
    s.agenda = .host (.regRead 32 off) :: rest →
    step s = .next { s with agenda := rest, answers := s.answers ++ [.data (readReg s off)] }

/-- 20_memory.md R63, R64, R65: the reserved offsets, the channels at and above NM, the slots at and above NSLOT read 0 and
ignore writes; STATUS, ERRINFO, PARAMS and SLOT(s) ignore writes; CMD reads 0. The
answer `ok` to an ignored write is the model's inference (log 7, DEDUCED). -/
def Obligations.ReservedAndReadOnlyOffsets : Prop :=
  ∀ (s : State) (off : Nat), off % 4 = 0 → off < 0x400 →
    ((0x010 ≤ off ∧ off < 0x100) ∨ (0x100 ≤ off ∧ off < 0x200 ∧ off % 16 = 0xC) ∨
      (0x100 ≤ off ∧ off < 0x200 ∧ s.cfg.nm ≤ (off - 0x100) / 16) ∨
      (0x200 ≤ off ∧ off < 0x240 ∧ s.cfg.nslot ≤ (off - 0x200) / 4) ∨ 0x240 ≤ off ∨ off = 0x000 →
      readReg s off = 0#32) ∧
    (off = 0x004 ∨ off = 0x008 ∨ off = 0x00C ∨ (0x010 ≤ off ∧ off < 0x100) ∨
      (0x100 ≤ off ∧ off < 0x200 ∧ (off % 16 = 0xC ∨ s.cfg.nm ≤ (off - 0x100) / 16)) ∨ 0x200 ≤ off →
      ∀ (v : Word) (rest : List Turn), s.agenda = .host (.regWrite 32 off v) :: rest →
        step s = .next { s with agenda := rest, answers := s.answers ++ [.ok] })

/-- 10_state.md R24, R28, R29, R32, 20_memory.md R62: what the read-only registers show, bit field by bit
field: STATUS; ERRINFO, with the fields of the error recorded last while ERR was 0; PARAMS; SLOT. -/
def Obligations.ReadOnlyRegisterLayout : Prop :=
  ∀ s : State, StateInv s →
    ((readReg s 0x004).getLsbD 0 = s.busy ∧ (readReg s 0x004).getLsbD 1 = s.err ∧
      (readReg s 0x004).getLsbD 2 = s.errovf ∧ (readReg s 0x004).extractLsb' 3 5 = 0#5 ∧
      (readReg s 0x004).extractLsb' 8 4 = errCodeBits s.ecode ∧ (readReg s 0x004).extractLsb' 12 4 = 0#4 ∧
      ((readReg s 0x004).extractLsb' 16 5).toNat = s.slots.length ∧ (readReg s 0x004).extractLsb' 21 11 = 0#11) ∧
    (readReg s 0x008 = s.errinfo ∧ (readReg s 0x008).extractLsb' 12 4 = 0#4 ∧
      ∀ (code : ErrCode) (e : ErrInfo), s.err = false →
        (readReg (recordError code e s) 0x008).extractLsb' 0 4 = e.opc ∧
        (readReg (recordError code e s) 0x008).extractLsb' 4 4 = e.motor ∧
        (readReg (recordError code e s) 0x008).extractLsb' 8 2 = e.pinidx ∧
        (readReg (recordError code e s) 0x008).getLsbD 10 = e.deen ∧
        (readReg (recordError code e s) 0x008).getLsbD 11 = e.regw ∧
        (readReg (recordError code e s) 0x008).extractLsb' 12 4 = 0#4 ∧
        (readReg (recordError code e s) 0x008).extractLsb' 16 8 = e.pinid ∧
        (readReg (recordError code e s) 0x008).extractLsb' 24 4 = e.pat ∧
        (readReg (recordError code e s) 0x008).extractLsb' 28 4 = e.slot) ∧
    (((readReg s 0x00C).extractLsb' 0 5).toNat = s.cfg.nm ∧ (readReg s 0x00C).extractLsb' 5 3 = 0#3 ∧
      ((readReg s 0x00C).extractLsb' 8 5).toNat = s.cfg.nslot ∧ (readReg s 0x00C).extractLsb' 13 3 = 0#3 ∧
      (readReg s 0x00C).extractLsb' 16 8 = 0x01#8 ∧ (readReg s 0x00C).extractLsb' 24 8 = 0#8) ∧
    (∀ (n : Nat) (sl : Slot), s.slots[n]? = some sl →
      ((readReg s (0x200 + 4 * n)).extractLsb' 0 16).toNat = sl.remaining ∧
      ((readReg s (0x200 + 4 * n)).extractLsb' 16 3).toNat = sl.idx ∧
      (readReg s (0x200 + 4 * n)).extractLsb' 19 1 = dirBit sl.dir ∧
      (readReg s (0x200 + 4 * n)).extractLsb' 20 4 = sl.motor ∧
      (readReg s (0x200 + 4 * n)).extractLsb' 24 7 = 0#7 ∧ (readReg s (0x200 + 4 * n)).getLsbD 31 = true) ∧
    ∀ n, s.slots.length ≤ n → n < 16 → readReg s (0x200 + 4 * n) = 0#32

/-- 20_memory.md R67, R68, 10_state.md R26, R27: the window is little-endian: after the host step that writes `v` to an idle
channel's CH_PINS or CH_DELAY, the byte at byte offset `j` of that register is `v[8j+7:8j]`, so that byte `j` of CH_PINS is
the pin id of pin index `j`; PARAMS holds VERSION in its byte at 0x00E; and no read and no write of another width than
32 bits is served, at any byte offset. -/
def Obligations.WindowIsLittleEndian : Prop :=
  (∀ (s : State) (m : MotorId) (v : Word) (rest : List Turn), s.busy = false → m.toNat < s.cfg.nm →
    (s.agenda = .host (.regWrite 32 (0x104 + 0x10 * m.toNat) v) :: rest → ∃ t, step s = .next t ∧
      ∀ j : Fin 4, regByte t (0x104 + 0x10 * m.toNat + j.val) = v.extractLsb' (8 * j.val) 8 ∧
        (t.chan m).pin j = regByte t (0x104 + 0x10 * m.toNat + j.val)) ∧
    (s.agenda = .host (.regWrite 32 (0x108 + 0x10 * m.toNat) v) :: rest → ∃ t, step s = .next t ∧
      (t.chan m).delay = v ∧
      ∀ j : Fin 4, regByte t (0x108 + 0x10 * m.toNat + j.val) = v.extractLsb' (8 * j.val) 8)) ∧
  (∀ s : State, regByte s 0x00E = 0x01#8) ∧
  ∀ (s : State) (width off : Nat) (rest : List Turn), width ≠ 32 →
    (s.agenda = .host (.regRead width off) :: rest →
      step s = .next { s with agenda := rest, answers := s.answers ++ [.busError] }) ∧
    ∀ v : Word, s.agenda = .host (.regWrite width off v) :: rest →
      step s = .next { s with agenda := rest, answers := s.answers ++ [.busError] }

/-! ## The host's other steps -/

/-- 60_exceptions.md R247, 10_state.md R37: a host change of OUT_EN or LEVEL changes that one bit and nothing else, and is no
event. -/
def Obligations.HostChangesOnePin : Prop :=
  ∀ (s : State) (p : PinId) (b : Bool) (rest : List Turn),
    (s.agenda = .host (.setOutEn p b) :: rest → ∃ t,
      step s = .next t ∧ t = { s with agenda := rest, outEn := t.outEn } ∧ t.outEnabled p = b ∧
      ∀ q, q ≠ p → t.outEnabled q = s.outEnabled q) ∧
    (s.agenda = .host (.setLevel p b) :: rest → ∃ t,
      step s = .next t ∧ t = { s with agenda := rest, level := t.level } ∧ t.pinLevel p = b ∧
      ∀ q, q ≠ p → t.pinLevel q = s.pinLevel q)

/-- 70_reset_and_hazards.md R260, R261, 10_state.md R37: reset, between any two steps, loads the reset values, abandons a
running command with no pin write and no dwell, and leaves the pin levels and the parameters alone; every motor is then
unconstructed. That OUT_EN, whose value at reset R260 leaves to the host, and the model's own answers, draws and agenda stay
as they are is the model's inference (log 22, DEDUCED). -/
def Obligations.ResetLoadsResetValues : Prop :=
  ∀ (s : State) (rest : List Turn), s.agenda = .host .reset :: rest → ∃ t,
    step s = .next t ∧
    (t.busy = false ∧ t.err = false ∧ t.errovf = false ∧ t.ecode = .none ∧ t.errinfo = 0#32 ∧ t.slots = [] ∧
      t.cmdl = 0#32 ∧ t.cont = none ∧ t.advIdx = 0 ∧ t.advLeft = 0 ∧ t.runTotal = 0 ∧ t.runDone = 0 ∧ t.runCur = 0) ∧
    (∀ m : MotorId, (t.chan m).ctrlWord = 0#32 ∧ (t.chan m).pinsWord = 0#32 ∧ (t.chan m).delay = 0#32 ∧
      t.motorOk m = false) ∧
    (t.cfg = s.cfg ∧ t.outEn = s.outEn ∧ t.level = s.level ∧ t.trace = s.trace ∧ t.answers = s.answers ∧
      t.draws = s.draws ∧ t.agenda = rest)

/-! ## Rules of the whole machine -/

/-- 60_exceptions.md R228, 10_state.md R28, R30: while ERR = 1, ECODE and ERRINFO keep the first error in every step but a
CLRERR's decode step and reset. -/
def Obligations.FirstErrorIsSticky : Prop :=
  ∀ s t : State, step s = .next t → s.err = true → s.agenda.head? ≠ some (.host .reset) →
    ¬ (SequencerTurn s ∧ s.cont = some .decode ∧ decodeCommand s.cmdl = .ok .clrerr) →
    t.err = true ∧ t.ecode = s.ecode ∧ t.errinfo = s.errinfo ∧ (s.errovf = true → t.errovf = true)

/-- 10_state.md R30, 60_exceptions.md R230: BUSY falls only in a command's final step, in a sequencer step that raises an
error, or by reset; and then the sequencer is idle. A step that raises is the decode step or a pin write: it records one
error, leaves the list or empties it, and changes nothing else: no pin, no event, no channel. -/
def Obligations.BusyFallsOnlyAtTheEnd : Prop :=
  ∀ s t : State, step s = .next t → s.busy = true → t.busy = false → t.cont = none ∧
    (s.agenda.head? = some (.host .reset) ∨
      (SequencerTurn s ∧ (s.cont = some .complete ∨ s.cont = some .runEnd)) ∨
      (SequencerTurn s ∧ (s.cont = some .decode ∨ (pendingWrite s).isSome = true) ∧ (t.slots = s.slots ∨ t.slots = []) ∧
        ∃ (code : ErrCode) (info : Word), code ≠ .none ∧
          t = { endedByError code info t.slots s with agenda := t.agenda, draws := t.draws }))

/-- 10_state.md R38, 42_step_scheduler.md R187: no step but reset changes a channel while BUSY = 1, and no sequencer step
changes one at all. -/
def Obligations.ChannelsConstantWhileBusy : Prop :=
  ∀ s t : State, step s = .next t → s.agenda.head? ≠ some (.host .reset) →
    (s.busy = true → t.chans = s.chans) ∧
    (SequencerTurn s → t.chans = s.chans)

/-- 40_phase_table_lut.md R124, 10_state.md R29: no step, reset among them, changes the phase tables or another parameter;
channels in the same mode use the same table. -/
def Obligations.ParametersAreConstant : Prop :=
  ∀ s t : State, step s = .next t →
    t.cfg = s.cfg ∧
    ∀ m k : MotorId, (t.chan m).mode = (t.chan k).mode → ∀ i, t.pattern m i = t.pattern k i

/-- 20_memory.md R72, R61, 10_state.md R37: a step makes at most one event, and but for the host's own change of a level the
pins change exactly as that event says; OUT_EN changes only by the host. That a rejected
write is no event is the model's inference (log 6, DEDUCED). -/
def Obligations.PinsFollowTheTrace : Prop :=
  ∀ s t : State, step s = .next t →
    ∃ evs : List Event, t.trace = s.trace ++ evs ∧ evs.length ≤ 1 ∧
      ((∀ p b, s.agenda.head? ≠ some (.host (.setLevel p b))) → t.level = playEvents s.level evs) ∧
      ((∀ p b, s.agenda.head? ≠ some (.host (.setOutEn p b))) → t.outEn = s.outEn) ∧
      (¬ SequencerTurn s → evs = [])

/-- 10_state.md R31, 42_step_scheduler.md R178: LISTLEN grows only by one, in the decode step of a LOAD; it becomes 0 only by
reset, in the decode step of a CLEAR and in the step that ends a RUN, and every end of a RUN makes it 0; it never exceeds
NSLOT. -/
def Obligations.ListLengthChanges : Prop :=
  ∀ s t : State, StateInv s → step s = .next t →
    t.listLen ≤ t.cfg.nslot ∧
    (t.listLen = s.listLen ∨
      (t.listLen = s.listLen + 1 ∧ SequencerTurn s ∧ s.cont = some .decode ∧
        ∃ m d cnt, decodeCommand s.cmdl = .ok (.load m d cnt)) ∨
      (t.listLen = 0 ∧
        (s.agenda.head? = some (.host .reset) ∨
          (SequencerTurn s ∧ s.cont = some .decode ∧ decodeCommand s.cmdl = .ok .clear) ∨
          (SequencerTurn s ∧ decodeCommand s.cmdl = .ok .run ∧ t.cont = none)))) ∧
    (s.busy = true → decodeCommand s.cmdl = .ok .run → t.busy = false → t.listLen = 0)

/-- 70_reset_and_hazards.md R260: the invariant holds right after reset. -/
def Obligations.ResetMeetsInvariant : Prop := StateInv State.reset

/-- 00_scope.md R10, 10_state.md R24 to R34: every step keeps the invariant: legal parameters, BUSY exactly while the
sequencer has a next step, the list within NSLOT, every counter within its width, absent channels untouched, a
consistent error record, and a sound continuation. -/
def Obligations.StepKeepsInvariant : Prop :=
  ∀ s t : State, StateInv s → step s = .next t → StateInv t

/-- 70_reset_and_hazards.md R291, 40_phase_table_lut.md R120: from a state that meets the invariant every step has a next
state: no fault and no refusal is reachable. -/
def Obligations.StepNeverStops : Prop :=
  ∀ s : State, StateInv s → ∃ t, step s = .next t

/-- 70_reset_and_hazards.md R291: every running command ends: with the sequencer moving, BUSY is 0 after at most the
2621426 steps of the longest RUN. -/
def Obligations.EveryCommandEnds : Prop :=
  ∀ s : State, StateInv s → s.agenda = [] → ∃ (n : Nat) (t : State),
    n ≤ 2621426 ∧ Sys2Proof.core.run n s = .next t ∧ t.busy = false

/-- 30_encoding.md R107, 20_memory.md R74: `wait` terminates, and leaves the block idle with its turn used up. -/
def Obligations.WaitTerminates : Prop :=
  ∀ (s : State) (rest : List Turn), StateInv s → s.agenda = .wait :: rest → ∃ (n : Nat) (t : State),
    Sys2Proof.core.run n s = .next t ∧ t.busy = false ∧ t.agenda = rest

/-- 10_state.md R34, 41_pwm_sequencer.md R153: the hidden counters left by earlier commands are read by nothing: two runs
from a decode step (or idle) that differ only in them stay the same in everything else, whatever the host does, until
both stop. -/
def Obligations.CountersCarryNothingOver : Prop :=
  ∀ (s t : State), SameButCounters s t → s.cont = some .decode ∨ s.cont = none →
    ∀ (n : Nat) (s' : State), Sys2Proof.core.run n s = .next s' →
      ∃ t', Sys2Proof.core.run n t = .next t' ∧ SameButCounters s' t'

/-! ## The phase tables -/

/-- 40_phase_table_lut.md R133: exactly the six tables listed there satisfy R122 and R125. -/
def Obligations.ExactlySixHalfTables : Prop :=
  sixHalfTables.length = 6 ∧ sixHalfTables.Nodup ∧ ∀ t : Vector Pattern 8, HalfTableOk t ↔ t ∈ sixHalfTables

/-- 41_pwm_sequencer.md R151, 40_phase_table_lut.md R129: the traversal that starts at Start and moves by Next is at
`j mod L` forward and `L - 1 - (j mod L)` backward. -/
def Obligations.TraversalClosedForm : Prop :=
  ∀ (d : Dir) (len : Nat), 0 < len →
    indexAt d len 0 = startIndex d len ∧
    ∀ j, indexAt d len (j + 1) = nextIndex (indexAt d len j) d len ∧ indexAt d len j < len

/-- 40_phase_table_lut.md R132, R125: the (j+1)-th pattern of a traversal is the entry that Next gives from the j-th's; so in
half-step mode consecutive patterns of one traversal differ in exactly one pin, in either direction and across the wrap,
for every admissible table. -/
def Obligations.ConsecutivePatternsDifferInOnePin : Prop :=
  ∀ (s : State) (m : MotorId) (d : Dir) (j : Nat),
    s.patternAt m (indexAt d (s.tableLen m) (j + 1)) =
      s.patternAt m (nextIndex (indexAt d (s.tableLen m) j) d (s.tableLen m)) ∧
    (HalfTableOk s.cfg.tableHalf → (s.chan m).mode = .half →
      popcount (s.patternAt m (indexAt d 8 j) ^^^ s.patternAt m (indexAt d 8 (j + 1))) = 1)

/-- 41_pwm_sequencer.md R155, 40_phase_table_lut.md R130: for `k mod L = 0` the backward phase patterns are the forward ones
in reverse order, and for the reference half-step table and k = 3 they are not. -/
def Obligations.DirectionSymmetry : Prop :=
  (∀ (s : State) (m : MotorId) (k : Nat), k % s.tableLen m = 0 →
    (List.range k).map (fun j => s.patternAt m (indexAt .backward (s.tableLen m) j)) =
      ((List.range k).map (fun j => s.patternAt m (indexAt .forward (s.tableLen m) j))).reverse) ∧
  (List.range 3).map (fun j => referenceHalf[indexAt .backward 8 j]?) =
    [some 0x9#4, some 0x1#4, some 0x3#4] ∧
  (List.range 3).map (fun j => referenceHalf[indexAt .forward 8 j]?) = [some 0x8#4, some 0xC#4, some 0x4#4]

/-! ## Host programs -/

/-- 30_encoding.md R109, R110: `config` on an idle block constructs the channel with its mode, pins and delay, in three host
writes, and touches nothing else; `release` clears VALID and MODE and keeps the pins and the delay. The
answers `ok` are the model's reading of 20_memory.md R60 (log 7, DEDUCED). -/
def Obligations.ConfigConstructsChannel : Prop :=
  ∀ (s : State) (m : MotorId) (mode : Mode) (p0 p1 p2 p3 : PinId) (delay : Word), s.busy = false → m.toNat < s.cfg.nm →
    (s.agenda = (Stmt.config m mode p0 p1 p2 p3 delay).expand →
      Sys2Proof.core.run 3 s = .next { s.setChan m
          { valid := true, mode := mode, pin0 := p0, pin1 := p1, pin2 := p2, pin3 := p3, delay := delay } with
        agenda := [], answers := s.answers ++ [.ok, .ok, .ok] }) ∧
    (s.agenda = (Stmt.release m).expand →
      Sys2Proof.core.run 1 s = .next { s.setChan m { s.chan m with valid := false, mode := .half } with
        agenda := [], answers := s.answers ++ [.ok] })

/-- 30_encoding.md R112, 42_step_scheduler.md R170, R174, R180: `runlist` on an idle block with motors that exist, counts in
0 to 32767 and no more items than NSLOT loads the items as slots in order, runs them, and ends idle with an empty list
and the closed form's events made, whatever stood in the list before. -/
def Obligations.RunlistRunsTheList : Prop :=
  ∀ (s : State) (items : List ListItem), s.busy = false → s.cont = none → s.agenda = (Stmt.runlist items).expand →
    items.length ≤ s.cfg.nslot →
    (∀ x ∈ items, s.motorOk x.motor = true ∧ 0 ≤ x.count ∧ x.count ≤ 32767) →
    AllAccepted s (runEvents { s with slots := items.map fun x =>
      { motor := x.motor, dir := x.dir, remaining := x.count.toNat, idx := 0 } }) →
    ∃ (n : Nat) (t : State), Sys2Proof.core.run n s = .next t ∧ t.busy = false ∧ t.agenda = [] ∧ t.slots = [] ∧
      t.trace = s.trace ++ runEvents { s with slots := items.map fun x =>
        { motor := x.motor, dir := x.dir, remaining := x.count.toNat, idx := 0 } } ∧
      t.level = playEvents s.level (runEvents { s with slots := items.map fun x =>
        { motor := x.motor, dir := x.dir, remaining := x.count.toNat, idx := 0 } }) ∧
      t.draws = drawsAfter s (pinsWritten (runEvents { s with slots := items.map fun x =>
        { motor := x.motor, dir := x.dir, remaining := x.count.toNat, idx := 0 } })).length ∧
      t.err = s.err ∧ t.errovf = s.errovf ∧ t.ecode = s.ecode ∧ t.errinfo = s.errinfo ∧ t.chans = s.chans ∧
      t.outEn = s.outEn ∧ t.cfg = s.cfg
end

