-- ==== Sys2Proof/Laws/Bits.lean ====
section
/-! SUPPORT. The numeric value of packed words and of their fields, and the fields of every encoding. -/

namespace Sys2Proof

/-- A concatenation as a number. -/
theorem toNat_cat {n m : Nat} (x : BitVec n) (y : BitVec m) : (x ++ y).toNat = x.toNat * 2 ^ m + y.toNat := by
  rw [BitVec.toNat_append, ← Nat.shiftLeft_add_eq_or_of_lt y.isLt, Nat.shiftLeft_eq]

/-- A packed word as a number. -/
theorem packed_toNat {n : Nat} (x : BitVec n) (h : n = 32) : (packed x h).toNat = x.toNat := by
  simp [packed]

/-- A field as a number. -/
theorem field_toNat {n : Nat} (x : BitVec n) (lo len : Nat) : (x.extractLsb' lo len).toNat = x.toNat / 2 ^ lo % 2 ^ len := by
  rw [BitVec.extractLsb'_toNat, Nat.shiftRight_eq_div_pow]

/-- A bit, as a number. -/
theorem bit_toNat (b : Bool) : (bit b).toNat = b.toNat := by cases b <;> rfl

/-- A bit is a one-bit field. -/
theorem getLsbD_eq_field {n : Nat} (x : BitVec n) (i : Nat) : x.getLsbD i = decide (x.toNat / 2 ^ i % 2 = 1) := by
  rw [BitVec.getLsbD, Nat.testBit_eq_decide_div_mod_eq]

/-! ## The fields of an encoding -/

variable (o : BitVec 4) (m : MotorId) (d : Dir) (cnt : Int)

theorem opcField_encodeMDC : opcField (encodeMDC o m d cnt) = o := by
  apply BitVec.eq_of_toNat_eq
  simp only [opcField, encodeMDC, field_toNat, packed_toNat, toNat_cat]
  omega

theorem motorField_encodeMDC : motorField (encodeMDC o m d cnt) = m := by
  apply BitVec.eq_of_toNat_eq
  simp only [motorField, encodeMDC, field_toNat, packed_toNat, toNat_cat]
  omega

theorem dirField_encodeMDC : dirField (encodeMDC o m d cnt) = d := by
  have h := (BitVec.ofInt 16 cnt).isLt
  unfold dirField
  rw [getLsbD_eq_field]
  cases d <;> simp only [encodeMDC, packed_toNat, toNat_cat, dirBit, BitVec.toNat_ofNat, decide_eq_true_eq] <;>
    split <;> first | rfl | omega

theorem rsvField_encodeMDC : rsvField (encodeMDC o m d cnt) = 0#7 := by
  apply BitVec.eq_of_toNat_eq
  simp only [rsvField, encodeMDC, field_toNat, packed_toNat, toNat_cat, BitVec.toNat_ofNat]
  omega

theorem countField_encodeMDC (h : countFits cnt) : countField (encodeMDC o m d cnt) = cnt := by
  have hf : (encodeMDC o m d cnt).extractLsb' 0 16 = BitVec.ofInt 16 cnt := by
    apply BitVec.eq_of_toNat_eq
    simp only [encodeMDC, field_toNat, packed_toNat, toNat_cat]
    omega
  obtain ⟨hlo, hhi⟩ := h
  rw [countField, hf, BitVec.toInt_ofInt]
  apply Int.bmod_eq_of_le <;> norm_num <;> omega

theorem opcField_encodeM : opcField (encodeM o m) = o := by
  apply BitVec.eq_of_toNat_eq
  simp only [opcField, encodeM, field_toNat, packed_toNat, toNat_cat]
  omega

theorem motorField_encodeM : motorField (encodeM o m) = m := by
  apply BitVec.eq_of_toNat_eq
  simp only [motorField, encodeM, field_toNat, packed_toNat, toNat_cat]
  omega

theorem low24_encodeM : (encodeM o m).extractLsb' 0 24 = 0#24 := by
  apply BitVec.eq_of_toNat_eq
  simp only [encodeM, field_toNat, packed_toNat, toNat_cat, BitVec.toNat_ofNat]
  omega

theorem opcField_encodeZ : opcField (encodeZ o) = o := by
  apply BitVec.eq_of_toNat_eq
  simp only [opcField, encodeZ, field_toNat, packed_toNat, toNat_cat]
  omega

theorem low28_encodeZ : (encodeZ o).extractLsb' 0 28 = 0#28 := by
  apply BitVec.eq_of_toNat_eq
  simp only [encodeZ, field_toNat, packed_toNat, toNat_cat, BitVec.toNat_ofNat]
  omega

/-- The channel of a CH_* offset. -/
theorem channelOfOffset_channelOffset (low : Nat) (h : low < 16) : channelOfOffset (channelOffset (0x100 + low) m) = m := by
  apply BitVec.eq_of_toNat_eq
  simp only [channelOfOffset, channelOffset, BitVec.toNat_ofNat]
  omega

end Sys2Proof
end

