-- ==== Sys2Proof/Laws/State.lean ====
section
/-! SUPPORT. One lemma per field per update of the state, so that no proof unfolds a record update. -/

namespace Sys2Proof.Machine

variable (s : State)

/-! ## setChan -/

@[simp] theorem setChan_cfg (m : MotorId) (c : Channel) : (s.setChan m c).cfg = s.cfg := rfl
@[simp] theorem setChan_busy (m : MotorId) (c : Channel) : (s.setChan m c).busy = s.busy := rfl
@[simp] theorem setChan_err (m : MotorId) (c : Channel) : (s.setChan m c).err = s.err := rfl
@[simp] theorem setChan_errovf (m : MotorId) (c : Channel) : (s.setChan m c).errovf = s.errovf := rfl
@[simp] theorem setChan_ecode (m : MotorId) (c : Channel) : (s.setChan m c).ecode = s.ecode := rfl
@[simp] theorem setChan_errinfo (m : MotorId) (c : Channel) : (s.setChan m c).errinfo = s.errinfo := rfl
@[simp] theorem setChan_chans (m : MotorId) (c : Channel) : (s.setChan m c).chans = s.chans.set m.toNat c (by have := m.isLt; omega) := rfl
@[simp] theorem setChan_slots (m : MotorId) (c : Channel) : (s.setChan m c).slots = s.slots := rfl
@[simp] theorem setChan_cmdl (m : MotorId) (c : Channel) : (s.setChan m c).cmdl = s.cmdl := rfl
@[simp] theorem setChan_cont (m : MotorId) (c : Channel) : (s.setChan m c).cont = s.cont := rfl
@[simp] theorem setChan_advIdx (m : MotorId) (c : Channel) : (s.setChan m c).advIdx = s.advIdx := rfl
@[simp] theorem setChan_advLeft (m : MotorId) (c : Channel) : (s.setChan m c).advLeft = s.advLeft := rfl
@[simp] theorem setChan_runTotal (m : MotorId) (c : Channel) : (s.setChan m c).runTotal = s.runTotal := rfl
@[simp] theorem setChan_runDone (m : MotorId) (c : Channel) : (s.setChan m c).runDone = s.runDone := rfl
@[simp] theorem setChan_runCur (m : MotorId) (c : Channel) : (s.setChan m c).runCur = s.runCur := rfl
@[simp] theorem setChan_outEn (m : MotorId) (c : Channel) : (s.setChan m c).outEn = s.outEn := rfl
@[simp] theorem setChan_level (m : MotorId) (c : Channel) : (s.setChan m c).level = s.level := rfl
@[simp] theorem setChan_draws (m : MotorId) (c : Channel) : (s.setChan m c).draws = s.draws := rfl
@[simp] theorem setChan_trace (m : MotorId) (c : Channel) : (s.setChan m c).trace = s.trace := rfl
@[simp] theorem setChan_answers (m : MotorId) (c : Channel) : (s.setChan m c).answers = s.answers := rfl
@[simp] theorem setChan_agenda (m : MotorId) (c : Channel) : (s.setChan m c).agenda = s.agenda := rfl

/-! ## setOutEnabled -/

@[simp] theorem setOutEnabled_cfg (p : PinId) (b : Bool) : (s.setOutEnabled p b).cfg = s.cfg := rfl
@[simp] theorem setOutEnabled_busy (p : PinId) (b : Bool) : (s.setOutEnabled p b).busy = s.busy := rfl
@[simp] theorem setOutEnabled_err (p : PinId) (b : Bool) : (s.setOutEnabled p b).err = s.err := rfl
@[simp] theorem setOutEnabled_errovf (p : PinId) (b : Bool) : (s.setOutEnabled p b).errovf = s.errovf := rfl
@[simp] theorem setOutEnabled_ecode (p : PinId) (b : Bool) : (s.setOutEnabled p b).ecode = s.ecode := rfl
@[simp] theorem setOutEnabled_errinfo (p : PinId) (b : Bool) : (s.setOutEnabled p b).errinfo = s.errinfo := rfl
@[simp] theorem setOutEnabled_chans (p : PinId) (b : Bool) : (s.setOutEnabled p b).chans = s.chans := rfl
@[simp] theorem setOutEnabled_slots (p : PinId) (b : Bool) : (s.setOutEnabled p b).slots = s.slots := rfl
@[simp] theorem setOutEnabled_cmdl (p : PinId) (b : Bool) : (s.setOutEnabled p b).cmdl = s.cmdl := rfl
@[simp] theorem setOutEnabled_cont (p : PinId) (b : Bool) : (s.setOutEnabled p b).cont = s.cont := rfl
@[simp] theorem setOutEnabled_advIdx (p : PinId) (b : Bool) : (s.setOutEnabled p b).advIdx = s.advIdx := rfl
@[simp] theorem setOutEnabled_advLeft (p : PinId) (b : Bool) : (s.setOutEnabled p b).advLeft = s.advLeft := rfl
@[simp] theorem setOutEnabled_runTotal (p : PinId) (b : Bool) : (s.setOutEnabled p b).runTotal = s.runTotal := rfl
@[simp] theorem setOutEnabled_runDone (p : PinId) (b : Bool) : (s.setOutEnabled p b).runDone = s.runDone := rfl
@[simp] theorem setOutEnabled_runCur (p : PinId) (b : Bool) : (s.setOutEnabled p b).runCur = s.runCur := rfl
@[simp] theorem setOutEnabled_outEn (p : PinId) (b : Bool) : (s.setOutEnabled p b).outEn = s.outEn.set p.toNat b (by have := p.isLt; omega) := rfl
@[simp] theorem setOutEnabled_level (p : PinId) (b : Bool) : (s.setOutEnabled p b).level = s.level := rfl
@[simp] theorem setOutEnabled_draws (p : PinId) (b : Bool) : (s.setOutEnabled p b).draws = s.draws := rfl
@[simp] theorem setOutEnabled_trace (p : PinId) (b : Bool) : (s.setOutEnabled p b).trace = s.trace := rfl
@[simp] theorem setOutEnabled_answers (p : PinId) (b : Bool) : (s.setOutEnabled p b).answers = s.answers := rfl
@[simp] theorem setOutEnabled_agenda (p : PinId) (b : Bool) : (s.setOutEnabled p b).agenda = s.agenda := rfl

/-! ## setPinLevel -/

@[simp] theorem setPinLevel_cfg (p : PinId) (b : Bool) : (s.setPinLevel p b).cfg = s.cfg := rfl
@[simp] theorem setPinLevel_busy (p : PinId) (b : Bool) : (s.setPinLevel p b).busy = s.busy := rfl
@[simp] theorem setPinLevel_err (p : PinId) (b : Bool) : (s.setPinLevel p b).err = s.err := rfl
@[simp] theorem setPinLevel_errovf (p : PinId) (b : Bool) : (s.setPinLevel p b).errovf = s.errovf := rfl
@[simp] theorem setPinLevel_ecode (p : PinId) (b : Bool) : (s.setPinLevel p b).ecode = s.ecode := rfl
@[simp] theorem setPinLevel_errinfo (p : PinId) (b : Bool) : (s.setPinLevel p b).errinfo = s.errinfo := rfl
@[simp] theorem setPinLevel_chans (p : PinId) (b : Bool) : (s.setPinLevel p b).chans = s.chans := rfl
@[simp] theorem setPinLevel_slots (p : PinId) (b : Bool) : (s.setPinLevel p b).slots = s.slots := rfl
@[simp] theorem setPinLevel_cmdl (p : PinId) (b : Bool) : (s.setPinLevel p b).cmdl = s.cmdl := rfl
@[simp] theorem setPinLevel_cont (p : PinId) (b : Bool) : (s.setPinLevel p b).cont = s.cont := rfl
@[simp] theorem setPinLevel_advIdx (p : PinId) (b : Bool) : (s.setPinLevel p b).advIdx = s.advIdx := rfl
@[simp] theorem setPinLevel_advLeft (p : PinId) (b : Bool) : (s.setPinLevel p b).advLeft = s.advLeft := rfl
@[simp] theorem setPinLevel_runTotal (p : PinId) (b : Bool) : (s.setPinLevel p b).runTotal = s.runTotal := rfl
@[simp] theorem setPinLevel_runDone (p : PinId) (b : Bool) : (s.setPinLevel p b).runDone = s.runDone := rfl
@[simp] theorem setPinLevel_runCur (p : PinId) (b : Bool) : (s.setPinLevel p b).runCur = s.runCur := rfl
@[simp] theorem setPinLevel_outEn (p : PinId) (b : Bool) : (s.setPinLevel p b).outEn = s.outEn := rfl
@[simp] theorem setPinLevel_level (p : PinId) (b : Bool) : (s.setPinLevel p b).level = s.level.set p.toNat b (by have := p.isLt; omega) := rfl
@[simp] theorem setPinLevel_draws (p : PinId) (b : Bool) : (s.setPinLevel p b).draws = s.draws := rfl
@[simp] theorem setPinLevel_trace (p : PinId) (b : Bool) : (s.setPinLevel p b).trace = s.trace := rfl
@[simp] theorem setPinLevel_answers (p : PinId) (b : Bool) : (s.setPinLevel p b).answers = s.answers := rfl
@[simp] theorem setPinLevel_agenda (p : PinId) (b : Bool) : (s.setPinLevel p b).agenda = s.agenda := rfl

/-! ## clearList -/

@[simp] theorem clearList_cfg : (clearList s).cfg = s.cfg := rfl
@[simp] theorem clearList_busy : (clearList s).busy = s.busy := rfl
@[simp] theorem clearList_err : (clearList s).err = s.err := rfl
@[simp] theorem clearList_errovf : (clearList s).errovf = s.errovf := rfl
@[simp] theorem clearList_ecode : (clearList s).ecode = s.ecode := rfl
@[simp] theorem clearList_errinfo : (clearList s).errinfo = s.errinfo := rfl
@[simp] theorem clearList_chans : (clearList s).chans = s.chans := rfl
@[simp] theorem clearList_slots : (clearList s).slots = [] := rfl
@[simp] theorem clearList_cmdl : (clearList s).cmdl = s.cmdl := rfl
@[simp] theorem clearList_cont : (clearList s).cont = s.cont := rfl
@[simp] theorem clearList_advIdx : (clearList s).advIdx = s.advIdx := rfl
@[simp] theorem clearList_advLeft : (clearList s).advLeft = s.advLeft := rfl
@[simp] theorem clearList_runTotal : (clearList s).runTotal = s.runTotal := rfl
@[simp] theorem clearList_runDone : (clearList s).runDone = s.runDone := rfl
@[simp] theorem clearList_runCur : (clearList s).runCur = s.runCur := rfl
@[simp] theorem clearList_outEn : (clearList s).outEn = s.outEn := rfl
@[simp] theorem clearList_level : (clearList s).level = s.level := rfl
@[simp] theorem clearList_draws : (clearList s).draws = s.draws := rfl
@[simp] theorem clearList_trace : (clearList s).trace = s.trace := rfl
@[simp] theorem clearList_answers : (clearList s).answers = s.answers := rfl
@[simp] theorem clearList_agenda : (clearList s).agenda = s.agenda := rfl

/-! ## complete -/

@[simp] theorem complete_cfg : (complete s).cfg = s.cfg := rfl
@[simp] theorem complete_busy : (complete s).busy = false := rfl
@[simp] theorem complete_err : (complete s).err = s.err := rfl
@[simp] theorem complete_errovf : (complete s).errovf = s.errovf := rfl
@[simp] theorem complete_ecode : (complete s).ecode = s.ecode := rfl
@[simp] theorem complete_errinfo : (complete s).errinfo = s.errinfo := rfl
@[simp] theorem complete_chans : (complete s).chans = s.chans := rfl
@[simp] theorem complete_slots : (complete s).slots = s.slots := rfl
@[simp] theorem complete_cmdl : (complete s).cmdl = s.cmdl := rfl
@[simp] theorem complete_cont : (complete s).cont = none := rfl
@[simp] theorem complete_advIdx : (complete s).advIdx = s.advIdx := rfl
@[simp] theorem complete_advLeft : (complete s).advLeft = s.advLeft := rfl
@[simp] theorem complete_runTotal : (complete s).runTotal = s.runTotal := rfl
@[simp] theorem complete_runDone : (complete s).runDone = s.runDone := rfl
@[simp] theorem complete_runCur : (complete s).runCur = s.runCur := rfl
@[simp] theorem complete_outEn : (complete s).outEn = s.outEn := rfl
@[simp] theorem complete_level : (complete s).level = s.level := rfl
@[simp] theorem complete_draws : (complete s).draws = s.draws := rfl
@[simp] theorem complete_trace : (complete s).trace = s.trace := rfl
@[simp] theorem complete_answers : (complete s).answers = s.answers := rfl
@[simp] theorem complete_agenda : (complete s).agenda = s.agenda := rfl

/-! ## continueWith -/

@[simp] theorem continueWith_cfg (k : Cont) : (continueWith k s).cfg = s.cfg := rfl
@[simp] theorem continueWith_busy (k : Cont) : (continueWith k s).busy = s.busy := rfl
@[simp] theorem continueWith_err (k : Cont) : (continueWith k s).err = s.err := rfl
@[simp] theorem continueWith_errovf (k : Cont) : (continueWith k s).errovf = s.errovf := rfl
@[simp] theorem continueWith_ecode (k : Cont) : (continueWith k s).ecode = s.ecode := rfl
@[simp] theorem continueWith_errinfo (k : Cont) : (continueWith k s).errinfo = s.errinfo := rfl
@[simp] theorem continueWith_chans (k : Cont) : (continueWith k s).chans = s.chans := rfl
@[simp] theorem continueWith_slots (k : Cont) : (continueWith k s).slots = s.slots := rfl
@[simp] theorem continueWith_cmdl (k : Cont) : (continueWith k s).cmdl = s.cmdl := rfl
@[simp] theorem continueWith_cont (k : Cont) : (continueWith k s).cont = some k := rfl
@[simp] theorem continueWith_advIdx (k : Cont) : (continueWith k s).advIdx = s.advIdx := rfl
@[simp] theorem continueWith_advLeft (k : Cont) : (continueWith k s).advLeft = s.advLeft := rfl
@[simp] theorem continueWith_runTotal (k : Cont) : (continueWith k s).runTotal = s.runTotal := rfl
@[simp] theorem continueWith_runDone (k : Cont) : (continueWith k s).runDone = s.runDone := rfl
@[simp] theorem continueWith_runCur (k : Cont) : (continueWith k s).runCur = s.runCur := rfl
@[simp] theorem continueWith_outEn (k : Cont) : (continueWith k s).outEn = s.outEn := rfl
@[simp] theorem continueWith_level (k : Cont) : (continueWith k s).level = s.level := rfl
@[simp] theorem continueWith_draws (k : Cont) : (continueWith k s).draws = s.draws := rfl
@[simp] theorem continueWith_trace (k : Cont) : (continueWith k s).trace = s.trace := rfl
@[simp] theorem continueWith_answers (k : Cont) : (continueWith k s).answers = s.answers := rfl
@[simp] theorem continueWith_agenda (k : Cont) : (continueWith k s).agenda = s.agenda := rfl

/-! ## clearErrors -/

@[simp] theorem clearErrors_cfg : (clearErrors s).cfg = s.cfg := rfl
@[simp] theorem clearErrors_busy : (clearErrors s).busy = s.busy := rfl
@[simp] theorem clearErrors_err : (clearErrors s).err = false := rfl
@[simp] theorem clearErrors_errovf : (clearErrors s).errovf = false := rfl
@[simp] theorem clearErrors_ecode : (clearErrors s).ecode = .none := rfl
@[simp] theorem clearErrors_errinfo : (clearErrors s).errinfo = 0#32 := rfl
@[simp] theorem clearErrors_chans : (clearErrors s).chans = s.chans := rfl
@[simp] theorem clearErrors_slots : (clearErrors s).slots = s.slots := rfl
@[simp] theorem clearErrors_cmdl : (clearErrors s).cmdl = s.cmdl := rfl
@[simp] theorem clearErrors_cont : (clearErrors s).cont = s.cont := rfl
@[simp] theorem clearErrors_advIdx : (clearErrors s).advIdx = s.advIdx := rfl
@[simp] theorem clearErrors_advLeft : (clearErrors s).advLeft = s.advLeft := rfl
@[simp] theorem clearErrors_runTotal : (clearErrors s).runTotal = s.runTotal := rfl
@[simp] theorem clearErrors_runDone : (clearErrors s).runDone = s.runDone := rfl
@[simp] theorem clearErrors_runCur : (clearErrors s).runCur = s.runCur := rfl
@[simp] theorem clearErrors_outEn : (clearErrors s).outEn = s.outEn := rfl
@[simp] theorem clearErrors_level : (clearErrors s).level = s.level := rfl
@[simp] theorem clearErrors_draws : (clearErrors s).draws = s.draws := rfl
@[simp] theorem clearErrors_trace : (clearErrors s).trace = s.trace := rfl
@[simp] theorem clearErrors_answers : (clearErrors s).answers = s.answers := rfl
@[simp] theorem clearErrors_agenda : (clearErrors s).agenda = s.agenda := rfl

/-! ## dwell -/

@[simp] theorem dwell_cfg (m : MotorId) : (dwell m s).cfg = s.cfg := rfl
@[simp] theorem dwell_busy (m : MotorId) : (dwell m s).busy = s.busy := rfl
@[simp] theorem dwell_err (m : MotorId) : (dwell m s).err = s.err := rfl
@[simp] theorem dwell_errovf (m : MotorId) : (dwell m s).errovf = s.errovf := rfl
@[simp] theorem dwell_ecode (m : MotorId) : (dwell m s).ecode = s.ecode := rfl
@[simp] theorem dwell_errinfo (m : MotorId) : (dwell m s).errinfo = s.errinfo := rfl
@[simp] theorem dwell_chans (m : MotorId) : (dwell m s).chans = s.chans := rfl
@[simp] theorem dwell_slots (m : MotorId) : (dwell m s).slots = s.slots := rfl
@[simp] theorem dwell_cmdl (m : MotorId) : (dwell m s).cmdl = s.cmdl := rfl
@[simp] theorem dwell_cont (m : MotorId) : (dwell m s).cont = s.cont := rfl
@[simp] theorem dwell_advIdx (m : MotorId) : (dwell m s).advIdx = s.advIdx := rfl
@[simp] theorem dwell_advLeft (m : MotorId) : (dwell m s).advLeft = s.advLeft := rfl
@[simp] theorem dwell_runTotal (m : MotorId) : (dwell m s).runTotal = s.runTotal := rfl
@[simp] theorem dwell_runDone (m : MotorId) : (dwell m s).runDone = s.runDone := rfl
@[simp] theorem dwell_runCur (m : MotorId) : (dwell m s).runCur = s.runCur := rfl
@[simp] theorem dwell_outEn (m : MotorId) : (dwell m s).outEn = s.outEn := rfl
@[simp] theorem dwell_level (m : MotorId) : (dwell m s).level = s.level := rfl
@[simp] theorem dwell_draws (m : MotorId) : (dwell m s).draws = s.draws := rfl
@[simp] theorem dwell_trace (m : MotorId) : (dwell m s).trace = s.trace ++ [.dwell m (s.chan m).delay] := rfl
@[simp] theorem dwell_answers (m : MotorId) : (dwell m s).answers = s.answers := rfl
@[simp] theorem dwell_agenda (m : MotorId) : (dwell m s).agenda = s.agenda := rfl

/-! ## advanceCursor -/

@[simp] theorem advanceCursor_cfg : (advanceCursor s).cfg = s.cfg := rfl
@[simp] theorem advanceCursor_busy : (advanceCursor s).busy = s.busy := rfl
@[simp] theorem advanceCursor_err : (advanceCursor s).err = s.err := rfl
@[simp] theorem advanceCursor_errovf : (advanceCursor s).errovf = s.errovf := rfl
@[simp] theorem advanceCursor_ecode : (advanceCursor s).ecode = s.ecode := rfl
@[simp] theorem advanceCursor_errinfo : (advanceCursor s).errinfo = s.errinfo := rfl
@[simp] theorem advanceCursor_chans : (advanceCursor s).chans = s.chans := rfl
@[simp] theorem advanceCursor_slots : (advanceCursor s).slots = s.slots := rfl
@[simp] theorem advanceCursor_cmdl : (advanceCursor s).cmdl = s.cmdl := rfl
@[simp] theorem advanceCursor_cont : (advanceCursor s).cont = s.cont := rfl
@[simp] theorem advanceCursor_advIdx : (advanceCursor s).advIdx = s.advIdx := rfl
@[simp] theorem advanceCursor_advLeft : (advanceCursor s).advLeft = s.advLeft := rfl
@[simp] theorem advanceCursor_runTotal : (advanceCursor s).runTotal = s.runTotal := rfl
@[simp] theorem advanceCursor_runDone : (advanceCursor s).runDone = s.runDone := rfl
@[simp] theorem advanceCursor_runCur : (advanceCursor s).runCur = (s.runCur + 1) % s.slots.length := rfl
@[simp] theorem advanceCursor_outEn : (advanceCursor s).outEn = s.outEn := rfl
@[simp] theorem advanceCursor_level : (advanceCursor s).level = s.level := rfl
@[simp] theorem advanceCursor_draws : (advanceCursor s).draws = s.draws := rfl
@[simp] theorem advanceCursor_trace : (advanceCursor s).trace = s.trace := rfl
@[simp] theorem advanceCursor_answers : (advanceCursor s).answers = s.answers := rfl
@[simp] theorem advanceCursor_agenda : (advanceCursor s).agenda = s.agenda := rfl

/-! ## answer -/

@[simp] theorem answer_cfg (a : Answer) : (answer a s).cfg = s.cfg := rfl
@[simp] theorem answer_busy (a : Answer) : (answer a s).busy = s.busy := rfl
@[simp] theorem answer_err (a : Answer) : (answer a s).err = s.err := rfl
@[simp] theorem answer_errovf (a : Answer) : (answer a s).errovf = s.errovf := rfl
@[simp] theorem answer_ecode (a : Answer) : (answer a s).ecode = s.ecode := rfl
@[simp] theorem answer_errinfo (a : Answer) : (answer a s).errinfo = s.errinfo := rfl
@[simp] theorem answer_chans (a : Answer) : (answer a s).chans = s.chans := rfl
@[simp] theorem answer_slots (a : Answer) : (answer a s).slots = s.slots := rfl
@[simp] theorem answer_cmdl (a : Answer) : (answer a s).cmdl = s.cmdl := rfl
@[simp] theorem answer_cont (a : Answer) : (answer a s).cont = s.cont := rfl
@[simp] theorem answer_advIdx (a : Answer) : (answer a s).advIdx = s.advIdx := rfl
@[simp] theorem answer_advLeft (a : Answer) : (answer a s).advLeft = s.advLeft := rfl
@[simp] theorem answer_runTotal (a : Answer) : (answer a s).runTotal = s.runTotal := rfl
@[simp] theorem answer_runDone (a : Answer) : (answer a s).runDone = s.runDone := rfl
@[simp] theorem answer_runCur (a : Answer) : (answer a s).runCur = s.runCur := rfl
@[simp] theorem answer_outEn (a : Answer) : (answer a s).outEn = s.outEn := rfl
@[simp] theorem answer_level (a : Answer) : (answer a s).level = s.level := rfl
@[simp] theorem answer_draws (a : Answer) : (answer a s).draws = s.draws := rfl
@[simp] theorem answer_trace (a : Answer) : (answer a s).trace = s.trace := rfl
@[simp] theorem answer_answers (a : Answer) : (answer a s).answers = s.answers ++ [a] := rfl
@[simp] theorem answer_agenda (a : Answer) : (answer a s).agenda = s.agenda := rfl

/-! ## startRun -/

@[simp] theorem startRun_cfg : (startRun s).cfg = s.cfg := rfl
@[simp] theorem startRun_busy : (startRun s).busy = s.busy := rfl
@[simp] theorem startRun_err : (startRun s).err = s.err := rfl
@[simp] theorem startRun_errovf : (startRun s).errovf = s.errovf := rfl
@[simp] theorem startRun_ecode : (startRun s).ecode = s.ecode := rfl
@[simp] theorem startRun_errinfo : (startRun s).errinfo = s.errinfo := rfl
@[simp] theorem startRun_chans : (startRun s).chans = s.chans := rfl
@[simp] theorem startRun_slots : (startRun s).slots = s.slots.map s.startSlot := rfl
@[simp] theorem startRun_cmdl : (startRun s).cmdl = s.cmdl := rfl
@[simp] theorem startRun_cont : (startRun s).cont = s.cont := rfl
@[simp] theorem startRun_advIdx : (startRun s).advIdx = s.advIdx := rfl
@[simp] theorem startRun_advLeft : (startRun s).advLeft = s.advLeft := rfl
@[simp] theorem startRun_runTotal : (startRun s).runTotal = totalRemaining s.slots := rfl
@[simp] theorem startRun_runDone : (startRun s).runDone = 0 := rfl
@[simp] theorem startRun_runCur : (startRun s).runCur = 0 := rfl
@[simp] theorem startRun_outEn : (startRun s).outEn = s.outEn := rfl
@[simp] theorem startRun_level : (startRun s).level = s.level := rfl
@[simp] theorem startRun_draws : (startRun s).draws = s.draws := rfl
@[simp] theorem startRun_trace : (startRun s).trace = s.trace := rfl
@[simp] theorem startRun_answers : (startRun s).answers = s.answers := rfl
@[simp] theorem startRun_agenda : (startRun s).agenda = s.agenda := rfl

/-! ## resetBlock -/

@[simp] theorem resetBlock_cfg : (resetBlock s).cfg = s.cfg := rfl
@[simp] theorem resetBlock_busy : (resetBlock s).busy = false := rfl
@[simp] theorem resetBlock_err : (resetBlock s).err = false := rfl
@[simp] theorem resetBlock_errovf : (resetBlock s).errovf = false := rfl
@[simp] theorem resetBlock_ecode : (resetBlock s).ecode = .none := rfl
@[simp] theorem resetBlock_errinfo : (resetBlock s).errinfo = 0#32 := rfl
@[simp] theorem resetBlock_chans : (resetBlock s).chans = Vector.replicate 16 Channel.unbuilt := rfl
@[simp] theorem resetBlock_slots : (resetBlock s).slots = [] := rfl
@[simp] theorem resetBlock_cmdl : (resetBlock s).cmdl = 0#32 := rfl
@[simp] theorem resetBlock_cont : (resetBlock s).cont = none := rfl
@[simp] theorem resetBlock_advIdx : (resetBlock s).advIdx = 0 := rfl
@[simp] theorem resetBlock_advLeft : (resetBlock s).advLeft = 0 := rfl
@[simp] theorem resetBlock_runTotal : (resetBlock s).runTotal = 0 := rfl
@[simp] theorem resetBlock_runDone : (resetBlock s).runDone = 0 := rfl
@[simp] theorem resetBlock_runCur : (resetBlock s).runCur = 0 := rfl
@[simp] theorem resetBlock_outEn : (resetBlock s).outEn = s.outEn := rfl
@[simp] theorem resetBlock_level : (resetBlock s).level = s.level := rfl
@[simp] theorem resetBlock_draws : (resetBlock s).draws = s.draws := rfl
@[simp] theorem resetBlock_trace : (resetBlock s).trace = s.trace := rfl
@[simp] theorem resetBlock_answers : (resetBlock s).answers = s.answers := rfl
@[simp] theorem resetBlock_agenda : (resetBlock s).agenda = s.agenda := rfl

end Sys2Proof.Machine
end

