-- ==== Sys2Proof/Laws/Ops.lean ====
section
/-! SUPPORT. What the shared operations do: one specification per operation, and the read-after-write laws. -/

namespace Sys2Proof.Machine

variable (s : State)

/-! ## The channel file -/

/-- Reading a channel after writing it gives what was written. -/
@[simp] theorem chan_setChan_self (m : MotorId) (c : Channel) : (s.setChan m c).chan m = c := by
  simp [State.chan, State.setChan]

/-- Writing a channel leaves every other channel alone. -/
theorem chan_setChan_ne (m k : MotorId) (c : Channel) (h : k ≠ m) : (s.setChan m c).chan k = s.chan k := by
  have hne : m.toNat ≠ k.toNat := fun e => h (BitVec.eq_of_toNat_eq e.symm)
  simp [State.chan, State.setChan, hne]

/-- A channel is read from the channel file alone. -/
theorem chan_congr (t : State) (h : t.chans = s.chans) (m : MotorId) : t.chan m = s.chan m := by
  simp only [State.chan, h]

/-- The table length of a motor depends on the channel file alone. -/
theorem tableLen_congr (t : State) (h : t.chans = s.chans) (m : MotorId) : t.tableLen m = s.tableLen m := by
  simp only [State.tableLen, chan_congr s t h]

/-- Whether a motor operand is valid depends on the channel file and NM. -/
theorem motorOk_congr (t : State) (hc : t.cfg = s.cfg) (h : t.chans = s.chans) (m : MotorId) :
    t.motorOk m = s.motorOk m := by
  simp only [State.motorOk, hc, chan_congr s t h]

/-- A motor's pattern depends on the channel file and the tables. -/
theorem pattern_congr (t : State) (hc : t.cfg = s.cfg) (h : t.chans = s.chans) (m : MotorId) (i : Nat) :
    t.pattern m i = s.pattern m i := by
  simp only [State.pattern, hc, chan_congr s t h]

/-- A reset channel is unbuilt. -/
@[simp] theorem chan_resetBlock (m : MotorId) : (resetBlock s).chan m = Channel.unbuilt := by
  simp [State.chan]

/-! ## The GPIO port -/

/-- LEVEL[p] reads as it was last written. -/
@[simp] theorem pinLevel_setPinLevel_self (p : PinId) (b : Bool) : (s.setPinLevel p b).pinLevel p = b := by
  simp [State.pinLevel, State.setPinLevel]

/-- Writing LEVEL[p] leaves every other pin alone. -/
theorem pinLevel_setPinLevel_ne (p q : PinId) (b : Bool) (h : q ≠ p) : (s.setPinLevel p b).pinLevel q = s.pinLevel q := by
  have hne : p.toNat ≠ q.toNat := fun e => h (BitVec.eq_of_toNat_eq e.symm)
  simp [State.pinLevel, State.setPinLevel, hne]

/-- OUT_EN[p] reads as it was last written. -/
@[simp] theorem outEnabled_setOutEnabled_self (p : PinId) (b : Bool) :
    (s.setOutEnabled p b).outEnabled p = b := by
  simp [State.outEnabled, State.setOutEnabled]

/-- Writing OUT_EN[p] leaves every other pin alone. -/
theorem outEnabled_setOutEnabled_ne (p q : PinId) (b : Bool) (h : q ≠ p) :
    (s.setOutEnabled p b).outEnabled q = s.outEnabled q := by
  have hne : p.toNat ≠ q.toNat := fun e => h (BitVec.eq_of_toNat_eq e.symm)
  simp [State.outEnabled, State.setOutEnabled, hne]

/-! ## Recording and raising an error -/

/-- With no error recorded, the error is recorded whole. -/
theorem recordError_first (c : ErrCode) (e : ErrInfo) (h : s.err = false) :
    recordError c e s = { s with err := true, ecode := c, errinfo := e.pack } := by
  simp [recordError, h]

/-- With an error recorded, a later one only sets ERROVF. -/
theorem recordError_later (c : ErrCode) (e : ErrInfo) (h : s.err = true) :
    recordError c e s = { s with errovf := true } := by
  simp [recordError, h]

/-- Recording an error always leaves ERR set. -/
@[simp] theorem recordError_err (c : ErrCode) (e : ErrInfo) : (recordError c e s).err = true := by
  unfold recordError
  split
  · assumption
  · rfl

@[simp] theorem recordError_cfg (c : ErrCode) (e : ErrInfo) : (recordError c e s).cfg = s.cfg := by unfold recordError; split <;> rfl
@[simp] theorem recordError_busy (c : ErrCode) (e : ErrInfo) : (recordError c e s).busy = s.busy := by unfold recordError; split <;> rfl
@[simp] theorem recordError_chans (c : ErrCode) (e : ErrInfo) : (recordError c e s).chans = s.chans := by unfold recordError; split <;> rfl
@[simp] theorem recordError_slots (c : ErrCode) (e : ErrInfo) : (recordError c e s).slots = s.slots := by unfold recordError; split <;> rfl
@[simp] theorem recordError_cmdl (c : ErrCode) (e : ErrInfo) : (recordError c e s).cmdl = s.cmdl := by unfold recordError; split <;> rfl
@[simp] theorem recordError_cont (c : ErrCode) (e : ErrInfo) : (recordError c e s).cont = s.cont := by unfold recordError; split <;> rfl
@[simp] theorem recordError_advIdx (c : ErrCode) (e : ErrInfo) : (recordError c e s).advIdx = s.advIdx := by unfold recordError; split <;> rfl
@[simp] theorem recordError_advLeft (c : ErrCode) (e : ErrInfo) : (recordError c e s).advLeft = s.advLeft := by unfold recordError; split <;> rfl
@[simp] theorem recordError_runTotal (c : ErrCode) (e : ErrInfo) : (recordError c e s).runTotal = s.runTotal := by unfold recordError; split <;> rfl
@[simp] theorem recordError_runDone (c : ErrCode) (e : ErrInfo) : (recordError c e s).runDone = s.runDone := by unfold recordError; split <;> rfl
@[simp] theorem recordError_runCur (c : ErrCode) (e : ErrInfo) : (recordError c e s).runCur = s.runCur := by unfold recordError; split <;> rfl
@[simp] theorem recordError_outEn (c : ErrCode) (e : ErrInfo) : (recordError c e s).outEn = s.outEn := by unfold recordError; split <;> rfl
@[simp] theorem recordError_level (c : ErrCode) (e : ErrInfo) : (recordError c e s).level = s.level := by unfold recordError; split <;> rfl
@[simp] theorem recordError_draws (c : ErrCode) (e : ErrInfo) : (recordError c e s).draws = s.draws := by unfold recordError; split <;> rfl
@[simp] theorem recordError_trace (c : ErrCode) (e : ErrInfo) : (recordError c e s).trace = s.trace := by unfold recordError; split <;> rfl
@[simp] theorem recordError_answers (c : ErrCode) (e : ErrInfo) : (recordError c e s).answers = s.answers := by unfold recordError; split <;> rfl
@[simp] theorem recordError_agenda (c : ErrCode) (e : ErrInfo) : (recordError c e s).agenda = s.agenda := by unfold recordError; split <;> rfl

/-- A raise ends the command. -/
@[simp] theorem raise_busy (c : ErrCode) (e : ErrInfo) (r : Bool) : (raise c e r s).busy = false := rfl
@[simp] theorem raise_cont (c : ErrCode) (e : ErrInfo) (r : Bool) : (raise c e r s).cont = none := rfl

/-- A raise in RUN empties the list. -/
@[simp] theorem raise_slots (c : ErrCode) (e : ErrInfo) (r : Bool) :
    (raise c e r s).slots = if r then [] else s.slots := by
  unfold raise
  split <;> simp [*]

/-- What a raise records is what `recordError` records. -/
@[simp] theorem raise_err (c : ErrCode) (e : ErrInfo) (r : Bool) : (raise c e r s).err = true := by
  unfold raise
  split <;> simp
@[simp] theorem raise_errovf (c : ErrCode) (e : ErrInfo) (r : Bool) :
    (raise c e r s).errovf = (recordError c e s).errovf := by
  unfold raise
  split <;> simp
@[simp] theorem raise_ecode (c : ErrCode) (e : ErrInfo) (r : Bool) :
    (raise c e r s).ecode = (recordError c e s).ecode := by
  unfold raise
  split <;> simp
@[simp] theorem raise_errinfo (c : ErrCode) (e : ErrInfo) (r : Bool) :
    (raise c e r s).errinfo = (recordError c e s).errinfo := by
  unfold raise
  split <;> simp

@[simp] theorem raise_cfg (c : ErrCode) (e : ErrInfo) (r : Bool) : (raise c e r s).cfg = s.cfg := by unfold raise; split <;> simp
@[simp] theorem raise_chans (c : ErrCode) (e : ErrInfo) (r : Bool) : (raise c e r s).chans = s.chans := by unfold raise; split <;> simp
@[simp] theorem raise_cmdl (c : ErrCode) (e : ErrInfo) (r : Bool) : (raise c e r s).cmdl = s.cmdl := by unfold raise; split <;> simp
@[simp] theorem raise_advIdx (c : ErrCode) (e : ErrInfo) (r : Bool) : (raise c e r s).advIdx = s.advIdx := by unfold raise; split <;> simp
@[simp] theorem raise_advLeft (c : ErrCode) (e : ErrInfo) (r : Bool) : (raise c e r s).advLeft = s.advLeft := by unfold raise; split <;> simp
@[simp] theorem raise_runTotal (c : ErrCode) (e : ErrInfo) (r : Bool) : (raise c e r s).runTotal = s.runTotal := by unfold raise; split <;> simp
@[simp] theorem raise_runDone (c : ErrCode) (e : ErrInfo) (r : Bool) : (raise c e r s).runDone = s.runDone := by unfold raise; split <;> simp
@[simp] theorem raise_runCur (c : ErrCode) (e : ErrInfo) (r : Bool) : (raise c e r s).runCur = s.runCur := by unfold raise; split <;> simp
@[simp] theorem raise_outEn (c : ErrCode) (e : ErrInfo) (r : Bool) : (raise c e r s).outEn = s.outEn := by unfold raise; split <;> simp
@[simp] theorem raise_level (c : ErrCode) (e : ErrInfo) (r : Bool) : (raise c e r s).level = s.level := by unfold raise; split <;> simp
@[simp] theorem raise_draws (c : ErrCode) (e : ErrInfo) (r : Bool) : (raise c e r s).draws = s.draws := by unfold raise; split <;> simp
@[simp] theorem raise_trace (c : ErrCode) (e : ErrInfo) (r : Bool) : (raise c e r s).trace = s.trace := by unfold raise; split <;> simp
@[simp] theorem raise_answers (c : ErrCode) (e : ErrInfo) (r : Bool) : (raise c e r s).answers = s.answers := by unfold raise; split <;> simp
@[simp] theorem raise_agenda (c : ErrCode) (e : ErrInfo) (r : Bool) : (raise c e r s).agenda = s.agenda := by unfold raise; split <;> simp

/-! ## Pin writes -/

@[simp] theorem drawAnswer_cfg : (drawAnswer s).cfg = s.cfg := by unfold drawAnswer; split <;> rfl
@[simp] theorem drawAnswer_busy : (drawAnswer s).busy = s.busy := by unfold drawAnswer; split <;> rfl
@[simp] theorem drawAnswer_err : (drawAnswer s).err = s.err := by unfold drawAnswer; split <;> rfl
@[simp] theorem drawAnswer_errovf : (drawAnswer s).errovf = s.errovf := by unfold drawAnswer; split <;> rfl
@[simp] theorem drawAnswer_ecode : (drawAnswer s).ecode = s.ecode := by unfold drawAnswer; split <;> rfl
@[simp] theorem drawAnswer_errinfo : (drawAnswer s).errinfo = s.errinfo := by unfold drawAnswer; split <;> rfl
@[simp] theorem drawAnswer_chans : (drawAnswer s).chans = s.chans := by unfold drawAnswer; split <;> rfl
@[simp] theorem drawAnswer_slots : (drawAnswer s).slots = s.slots := by unfold drawAnswer; split <;> rfl
@[simp] theorem drawAnswer_cmdl : (drawAnswer s).cmdl = s.cmdl := by unfold drawAnswer; split <;> rfl
@[simp] theorem drawAnswer_cont : (drawAnswer s).cont = s.cont := by unfold drawAnswer; split <;> rfl
@[simp] theorem drawAnswer_advIdx : (drawAnswer s).advIdx = s.advIdx := by unfold drawAnswer; split <;> rfl
@[simp] theorem drawAnswer_advLeft : (drawAnswer s).advLeft = s.advLeft := by unfold drawAnswer; split <;> rfl
@[simp] theorem drawAnswer_runTotal : (drawAnswer s).runTotal = s.runTotal := by unfold drawAnswer; split <;> rfl
@[simp] theorem drawAnswer_runDone : (drawAnswer s).runDone = s.runDone := by unfold drawAnswer; split <;> rfl
@[simp] theorem drawAnswer_runCur : (drawAnswer s).runCur = s.runCur := by unfold drawAnswer; split <;> rfl
@[simp] theorem drawAnswer_outEn : (drawAnswer s).outEn = s.outEn := by unfold drawAnswer; split <;> rfl
@[simp] theorem drawAnswer_level : (drawAnswer s).level = s.level := by unfold drawAnswer; split <;> rfl
@[simp] theorem drawAnswer_trace : (drawAnswer s).trace = s.trace := by unfold drawAnswer; split <;> rfl
@[simp] theorem drawAnswer_answers : (drawAnswer s).answers = s.answers := by unfold drawAnswer; split <;> rfl
@[simp] theorem drawAnswer_agenda : (drawAnswer s).agenda = s.agenda := by unfold drawAnswer; split <;> rfl

@[simp] theorem acceptedWrite_trace (p : PinId) (b : Bool) :
    (acceptedWrite p b s).trace = s.trace ++ [.pinWrite p b] := rfl
@[simp] theorem acceptedWrite_level (p : PinId) (b : Bool) :
    (acceptedWrite p b s).level = playEvent s.level (.pinWrite p b) := by
  simp [acceptedWrite, playEvent]
@[simp] theorem acceptedWrite_draws (p : PinId) (b : Bool) :
    (acceptedWrite p b s).draws = (drawAnswer s).draws := rfl
@[simp] theorem acceptedWrite_cfg (p : PinId) (b : Bool) : (acceptedWrite p b s).cfg = s.cfg := by simp [acceptedWrite]
@[simp] theorem acceptedWrite_busy (p : PinId) (b : Bool) : (acceptedWrite p b s).busy = s.busy := by simp [acceptedWrite]
@[simp] theorem acceptedWrite_err (p : PinId) (b : Bool) : (acceptedWrite p b s).err = s.err := by simp [acceptedWrite]
@[simp] theorem acceptedWrite_errovf (p : PinId) (b : Bool) : (acceptedWrite p b s).errovf = s.errovf := by simp [acceptedWrite]
@[simp] theorem acceptedWrite_ecode (p : PinId) (b : Bool) : (acceptedWrite p b s).ecode = s.ecode := by simp [acceptedWrite]
@[simp] theorem acceptedWrite_errinfo (p : PinId) (b : Bool) : (acceptedWrite p b s).errinfo = s.errinfo := by simp [acceptedWrite]
@[simp] theorem acceptedWrite_chans (p : PinId) (b : Bool) : (acceptedWrite p b s).chans = s.chans := by simp [acceptedWrite]
@[simp] theorem acceptedWrite_slots (p : PinId) (b : Bool) : (acceptedWrite p b s).slots = s.slots := by simp [acceptedWrite]
@[simp] theorem acceptedWrite_cmdl (p : PinId) (b : Bool) : (acceptedWrite p b s).cmdl = s.cmdl := by simp [acceptedWrite]
@[simp] theorem acceptedWrite_cont (p : PinId) (b : Bool) : (acceptedWrite p b s).cont = s.cont := by simp [acceptedWrite]
@[simp] theorem acceptedWrite_advIdx (p : PinId) (b : Bool) : (acceptedWrite p b s).advIdx = s.advIdx := by simp [acceptedWrite]
@[simp] theorem acceptedWrite_advLeft (p : PinId) (b : Bool) : (acceptedWrite p b s).advLeft = s.advLeft := by simp [acceptedWrite]
@[simp] theorem acceptedWrite_runTotal (p : PinId) (b : Bool) : (acceptedWrite p b s).runTotal = s.runTotal := by simp [acceptedWrite]
@[simp] theorem acceptedWrite_runDone (p : PinId) (b : Bool) : (acceptedWrite p b s).runDone = s.runDone := by simp [acceptedWrite]
@[simp] theorem acceptedWrite_runCur (p : PinId) (b : Bool) : (acceptedWrite p b s).runCur = s.runCur := by simp [acceptedWrite]
@[simp] theorem acceptedWrite_outEn (p : PinId) (b : Bool) : (acceptedWrite p b s).outEn = s.outEn := by simp [acceptedWrite]
@[simp] theorem acceptedWrite_answers (p : PinId) (b : Bool) : (acceptedWrite p b s).answers = s.answers := by simp [acceptedWrite]
@[simp] theorem acceptedWrite_agenda (p : PinId) (b : Bool) : (acceptedWrite p b s).agenda = s.agenda := by simp [acceptedWrite]

/-- Everything the pin-write step of `ApplyPattern` can do. -/
theorem writePin_cases (w : PatternWrite) (j : Fin 4) (next : State → Outcome) :
    (hostAccepts s ((s.chan w.motor).pin j) = true ∧
      writePin w j next s = next (acceptedWrite ((s.chan w.motor).pin j) (w.pat.getLsbD j.val) s)) ∨
    (hostAccepts s ((s.chan w.motor).pin j) = false ∧
      writePin w j next s = .next (raise .pinFault (pinFaultInfo w j s) w.slot.isSome (drawAnswer s))) := by
  unfold writePin
  split
  · exact .inl ⟨by assumption, rfl⟩
  · rename_i h
    exact .inr ⟨by simpa using h, rfl⟩

/-! ## The command list and RUN's loop head -/

@[simp] theorem totalRemaining_nil : totalRemaining [] = 0 := rfl
@[simp] theorem totalRemaining_cons (sl : Slot) (rest : List Slot) :
    totalRemaining (sl :: rest) = sl.remaining + totalRemaining rest := rfl

/-- Moving the indexes to their starts changes no count. -/
@[simp] theorem totalRemaining_startSlot (slots : List Slot) :
    totalRemaining (slots.map s.startSlot) = totalRemaining slots := by
  induction slots with
  | nil => rfl
  | cons sl rest ih => simp [ih, State.startSlot]

/-- A list with work left has an active slot. -/
theorem exists_active_of_totalRemaining_pos (slots : List Slot) (h : 0 < totalRemaining slots) :
    ∃ (n : Nat) (sl : Slot), slots[n]? = some sl ∧ 0 < sl.remaining := by
  induction slots with
  | nil => simp at h
  | cons sl rest ih =>
    by_cases hp : 0 < sl.remaining
    · exact ⟨0, sl, rfl, hp⟩
    · obtain ⟨n, sl', hn, hpos⟩ := ih (by simp at h; omega)
      exact ⟨n + 1, sl', by simpa using hn, hpos⟩

/-- Replacing a slot changes the total by the difference. -/
theorem totalRemaining_set (slots : List Slot) (n : Nat) (old new : Slot) (h : slots[n]? = some old) :
    totalRemaining (slots.set n new) + old.remaining = totalRemaining slots + new.remaining := by
  induction slots generalizing n with
  | nil => simp at h
  | cons sl rest ih =>
    cases n with
    | zero => simp at h; subst h; simp; omega
    | succ n => simp at h; have := ih n h; simp; omega

/-- The slot the cursor stops at is loaded and active. -/
theorem seekActive_active (slots : List Slot) (k c n : Nat) (h : seekActive slots k c = some n) :
    ∃ sl, slots[n]? = some sl ∧ 0 < sl.remaining := by
  induction k generalizing c with
  | zero => simp [seekActive] at h
  | succ k ih =>
    unfold seekActive at h
    split at h
    · cases h
    · split at h
      · cases h
        exact ⟨_, by assumption, by assumption⟩
      · exact ih _ h

/-- The cursor does not stop within `k` slots only if none of them is active. -/
theorem seekActive_none (slots : List Slot) (k c : Nat) (hc : c < slots.length) (h : seekActive slots k c = none)
    (i : Nat) (hi : i < k) (sl : Slot) (hsl : slots[(c + i) % slots.length]? = some sl) : sl.remaining = 0 := by
  induction k generalizing c i with
  | zero => omega
  | succ k ih =>
    have hget : slots[c]? = some slots[c] := by simp [hc]
    unfold seekActive at h
    rw [hget] at h
    simp only at h
    split at h
    · cases h
    · cases i with
      | zero =>
        rw [Nat.add_zero, Nat.mod_eq_of_lt hc, hget] at hsl
        cases hsl
        omega
      | succ i =>
        refine ih ((c + 1) % slots.length) (Nat.mod_lt _ (by omega)) h i (by omega) ?_
        rw [Nat.mod_add_mod, show c + 1 + i = c + (i + 1) by omega]
        exact hsl

/-- With work left, the cursor finds an active slot. -/
theorem seekActive_some (slots : List Slot) (c : Nat) (hc : c < slots.length) (h : 0 < totalRemaining slots) :
    ∃ n, seekActive slots slots.length c = some n := by
  cases hs : seekActive slots slots.length c with
  | some n => exact ⟨n, rfl⟩
  | none =>
    obtain ⟨n, sl, hn, hpos⟩ := exists_active_of_totalRemaining_pos slots h
    have hlt : n < slots.length := by
      by_contra hge
      simp [List.getElem?_eq_none (Nat.le_of_not_lt hge)] at hn
    have hidx : (c + (n + slots.length - c) % slots.length) % slots.length = n := by
      rw [Nat.add_mod_mod, show c + (n + slots.length - c) = n + slots.length by omega, Nat.add_mod_right]
      exact Nat.mod_eq_of_lt hlt
    have := seekActive_none slots slots.length c hc hs ((n + slots.length - c) % slots.length)
      (Nat.mod_lt _ (by omega)) sl (by rw [hidx]; exact hn)
    omega

/-- Everything the head of RUN's loop can answer. -/
theorem runHead_cases :
    (∃ n, s.runDone < s.runTotal ∧ seekActive s.slots s.slots.length s.runCur = some n ∧
      runHead s = .next (continueWith (.runPhase 0) { s with runCur := n })) ∨
    (s.runDone < s.runTotal ∧ seekActive s.slots s.slots.length s.runCur = none ∧
      runHead s = .fault .noActiveSlot) ∨
    (s.runTotal ≤ s.runDone ∧ runHead s = .next (continueWith .runEnd s)) := by
  unfold runHead
  split
  · split
    · exact .inl ⟨_, by assumption, by assumption, rfl⟩
    · exact .inr (.inl ⟨by assumption, by assumption, rfl⟩)
  · exact .inr (.inr ⟨by omega, rfl⟩)

/-- No slot fails the motor test exactly when every slot passes it. -/
theorem firstBadSlot_none (k : Nat) (slots : List Slot) :
    firstBadSlot s k slots = none ↔ ∀ sl ∈ slots, s.motorOk sl.motor = true := by
  induction slots generalizing k with
  | nil => simp [firstBadSlot]
  | cons sl rest ih =>
    unfold firstBadSlot
    split <;> simp_all

/-! ## The host's writes -/

/-- An idle block accepts a command word. -/
theorem submit_idle (w : Word) (h : s.busy = false) :
    submit w s = { s with cmdl := w, busy := true, cont := some .decode } := by
  simp [submit, h]

/-- A busy block drops it with E_BUSY. -/
theorem submit_busy (w : Word) (h : s.busy = true) :
    submit w s = recordError .busy { opc := opcField w, motor := motorField w } s := by
  simp [submit, h]

/-- A channel at or above NM ignores the write. -/
theorem writeChannel_absent (m : MotorId) (f : Channel → Channel) (h : s.cfg.nm ≤ m.toNat) :
    writeChannel m f s = s := by
  simp [writeChannel, Nat.not_lt.mpr h]

/-- An idle block takes the channel's new fields. -/
theorem writeChannel_idle (m : MotorId) (f : Channel → Channel) (hm : m.toNat < s.cfg.nm) (h : s.busy = false) :
    writeChannel m f s = s.setChan m (f (s.chan m)) := by
  simp [writeChannel, hm, h]

/-- A busy block drops the write with E_BUSY. -/
theorem writeChannel_busy (m : MotorId) (f : Channel → Channel) (hm : m.toNat < s.cfg.nm) (h : s.busy = true) :
    writeChannel m f s = recordError .busy { regw := true, motor := m } s := by
  simp [writeChannel, hm, h]

/-! ## The host's reads -/

/-- Which accesses are admitted (20_memory.md R68). -/
theorem admitted_iff (w off : Nat) : admitted w off = true ↔ w = 32 ∧ off % 4 = 0 ∧ off < 0x400 := by
  unfold admitted
  simp only [Bool.and_eq_true, beq_iff_eq, decide_eq_true_eq, and_assoc]

/-- A read appends one answer and changes nothing else. -/
theorem hostRead_eq (w off : Nat) :
    hostRead w off s = answer (if admitted w off then .data (readReg s off) else .busError) s := by
  unfold hostRead
  split <;> rfl

@[simp] theorem hostRead_cfg (w off : Nat) : (hostRead w off s).cfg = s.cfg := by unfold hostRead; split <;> rfl
@[simp] theorem hostRead_busy (w off : Nat) : (hostRead w off s).busy = s.busy := by unfold hostRead; split <;> rfl
@[simp] theorem hostRead_err (w off : Nat) : (hostRead w off s).err = s.err := by unfold hostRead; split <;> rfl
@[simp] theorem hostRead_errovf (w off : Nat) : (hostRead w off s).errovf = s.errovf := by unfold hostRead; split <;> rfl
@[simp] theorem hostRead_ecode (w off : Nat) : (hostRead w off s).ecode = s.ecode := by unfold hostRead; split <;> rfl
@[simp] theorem hostRead_errinfo (w off : Nat) : (hostRead w off s).errinfo = s.errinfo := by unfold hostRead; split <;> rfl
@[simp] theorem hostRead_chans (w off : Nat) : (hostRead w off s).chans = s.chans := by unfold hostRead; split <;> rfl
@[simp] theorem hostRead_slots (w off : Nat) : (hostRead w off s).slots = s.slots := by unfold hostRead; split <;> rfl
@[simp] theorem hostRead_cmdl (w off : Nat) : (hostRead w off s).cmdl = s.cmdl := by unfold hostRead; split <;> rfl
@[simp] theorem hostRead_cont (w off : Nat) : (hostRead w off s).cont = s.cont := by unfold hostRead; split <;> rfl
@[simp] theorem hostRead_advIdx (w off : Nat) : (hostRead w off s).advIdx = s.advIdx := by unfold hostRead; split <;> rfl
@[simp] theorem hostRead_advLeft (w off : Nat) : (hostRead w off s).advLeft = s.advLeft := by unfold hostRead; split <;> rfl
@[simp] theorem hostRead_runTotal (w off : Nat) : (hostRead w off s).runTotal = s.runTotal := by unfold hostRead; split <;> rfl
@[simp] theorem hostRead_runDone (w off : Nat) : (hostRead w off s).runDone = s.runDone := by unfold hostRead; split <;> rfl
@[simp] theorem hostRead_runCur (w off : Nat) : (hostRead w off s).runCur = s.runCur := by unfold hostRead; split <;> rfl
@[simp] theorem hostRead_outEn (w off : Nat) : (hostRead w off s).outEn = s.outEn := by unfold hostRead; split <;> rfl
@[simp] theorem hostRead_level (w off : Nat) : (hostRead w off s).level = s.level := by unfold hostRead; split <;> rfl
@[simp] theorem hostRead_draws (w off : Nat) : (hostRead w off s).draws = s.draws := by unfold hostRead; split <;> rfl
@[simp] theorem hostRead_trace (w off : Nat) : (hostRead w off s).trace = s.trace := by unfold hostRead; split <;> rfl
@[simp] theorem hostRead_agenda (w off : Nat) : (hostRead w off s).agenda = s.agenda := by unfold hostRead; split <;> rfl

/-- What stands at the three registers of a channel below NM (20_memory.md R62). -/
theorem regAt_channel (c : Config) (m : MotorId) (hm : m.toNat < c.nm) :
    regAt c (0x100 + 0x10 * m.toNat) = .chCtrl m ∧ regAt c (0x104 + 0x10 * m.toNat) = .chPins m ∧
      regAt c (0x108 + 0x10 * m.toNat) = .chDelay m := by
  have := m.isLt
  have hc : ∀ base, base / 16 = 16 → channelOfOffset (base + 0x10 * m.toNat) = m := by
    intro base h
    apply BitVec.eq_of_toNat_eq
    simp only [channelOfOffset, BitVec.toNat_ofNat]
    omega
  unfold regAt
  refine ⟨?_, ?_, ?_⟩
  · rw [if_neg (by omega), if_neg (by omega), if_neg (by omega), if_neg (by omega), if_pos (by omega), if_pos (by omega),
      show (0x100 + 0x10 * m.toNat) % 16 = 0x0 by omega, hc 0x100 (by omega)]
    rfl
  · rw [if_neg (by omega), if_neg (by omega), if_neg (by omega), if_neg (by omega), if_pos (by omega), if_pos (by omega),
      show (0x104 + 0x10 * m.toNat) % 16 = 0x4 by omega, hc 0x104 (by omega)]
    rfl
  · rw [if_neg (by omega), if_neg (by omega), if_neg (by omega), if_neg (by omega), if_pos (by omega), if_pos (by omega),
      show (0x108 + 0x10 * m.toNat) % 16 = 0x8 by omega, hc 0x108 (by omega)]
    rfl

/-- Byte `j` of the register at a word offset is the register's bits `[8j+7:8j]` (20_memory.md R67). -/
theorem regByte_word (off j : Nat) (h : off % 4 = 0) (hj : j < 4) :
    regByte s (off + j) = (readReg s off).extractLsb' (8 * j) 8 := by
  have hm : (off + j) % 4 = j := by omega
  simp [regByte, hm]

/-! ## Reset -/

/-- Resetting the machine right after reset changes nothing. -/
theorem resetBlock_reset : resetBlock State.reset = State.reset := rfl

end Sys2Proof.Machine
end

