-- ==== Sys2Proof/Laws/PerInstr.lean ====
section
/-! SUPPORT. Statements made of every instruction as syntax, one lemma per constructor. -/

/-- Every instruction reaches the block as one admitted access: a 32-bit write at an aligned offset of the window
(20_memory.md R68). -/
def Sys2Proof.Laws.EncodesAdmitted.Statement (i : Sys2Proof.Instr) : Prop :=
  Sys2Proof.Machine.admitted 32 (Sys2Proof.encode i).off = true

namespace Sys2Proof.Laws.EncodesAdmitted

open Sys2Proof.Machine

/-- A CH_* offset is admitted. -/
theorem channelOffset_admitted (base : Nat) (h4 : base % 4 = 0) (hb : base < 0x200) (m : MotorId) :
    admitted 32 (channelOffset base m) = true := by
  have := m.isLt
  rw [admitted_iff]
  unfold channelOffset
  exact ⟨rfl, by omega, by omega⟩

theorem nop : Statement .nop := rfl
theorem advance (m : MotorId) (d : Dir) (cnt : Int) : Statement (.advance m d cnt) := rfl
theorem deenergize (m : MotorId) : Statement (.deenergize m) := rfl
theorem load (m : MotorId) (d : Dir) (cnt : Int) : Statement (.load m d cnt) := rfl
theorem run : Statement .run := rfl
theorem clear : Statement .clear := rfl
theorem clrerr : Statement .clrerr := rfl
theorem illegalOpc7 (rest : BitVec 28) : Statement (.illegalOpc7 rest) := rfl
theorem illegalOpc8F (rest : BitVec 31) : Statement (.illegalOpc8F rest) := rfl
theorem wrChCtrl (m : MotorId) (v : Word) : Statement (.wrChCtrl m v) :=
  channelOffset_admitted 0x100 rfl (by decide) m
theorem wrChPins (m : MotorId) (v : Word) : Statement (.wrChPins m v) :=
  channelOffset_admitted 0x104 rfl (by decide) m
theorem wrChDelay (m : MotorId) (v : Word) : Statement (.wrChDelay m v) :=
  channelOffset_admitted 0x108 rfl (by decide) m

end Sys2Proof.Laws.EncodesAdmitted
end

