-- ==== Sys2Proof/Tests/Slice0.lean ====
section
/-! SUPPORT. Tests: the checks of WellFormed, decoding of written-out words, single steps against 95_test_vectors.md, and
one witness per statement that has hypotheses. Expected values come from spec/, the place named in each comment. -/

open Sys2Proof Sys2Proof.Machine

namespace Sys2Proof.Tests

set_option maxRecDepth 20000

/-! ## The small states of the tests -/

/-- Channel 0 of the base state B0 of 95_test_vectors.md. -/
def chan0 : Channel := { valid := true, mode := .half, pin0 := 4#8, pin1 := 5#8, pin2 := 6#8, pin3 := 7#8, delay := 1000#32 }

/-- Channel 1 of B0. -/
def chan1 : Channel := { valid := true, mode := .half, pin0 := 8#8, pin1 := 9#8, pin2 := 10#8, pin3 := 11#8, delay := 500#32 }

/-- The base state B0 of 95_test_vectors.md, with an empty trace. -/
def b0 : State :=
  { State.reset with
    chans := #v[chan0, chan1, .unbuilt, .unbuilt, .unbuilt, .unbuilt, .unbuilt, .unbuilt, .unbuilt, .unbuilt, .unbuilt,
      .unbuilt, .unbuilt, .unbuilt, .unbuilt, .unbuilt]
    outEn := Vector.replicate 256 true }

/-- B0 with a command word just accepted. -/
def accepted (w : Word) : State := { b0 with cmdl := w, busy := true, cont := some .decode }

/-- B0 in the middle of a command. -/
def running (w : Word) (k : Cont) : State := { b0 with cmdl := w, busy := true, cont := some k }

/-- B0 with a host turn to take. -/
def hostTurn (op : HostOp) : State := { b0 with agenda := [.host op] }

/-- A slot of channel 0, forward. -/
def slot (remaining idx : Nat) : Slot := { motor := 0#4, dir := .forward, remaining := remaining, idx := idx }

/-- A RUN over these slots, at its step `k` with the cursor at `cur`. -/
def inRun (k : Cont) (slots : List Slot) (cur : Nat) : State :=
  { running 0x4000_0000#32 k with slots := slots, runTotal := totalRemaining slots, runCur := cur }

/-- A reader of a next state; none where there is none. -/
def after {α : Type} (o : Outcome) (f : State → α) : Option α :=
  match o with
  | .next t => some (f t)
  | .fault _ => none
  | .refused _ => none

/-- STATUS and ERRINFO, as the host reads them. -/
def status (t : State) : Word × Word := (readReg t 0x004, readReg t 0x008)

/-! ## WellFormed: an ill-formed term for each check (30_encoding.md R95: -32768 to 32767) -/

theorem test_wf_advance_count_too_large : (Instr.advance 0#4 .forward 32768).wf = false := by decide
theorem test_wf_advance_count_too_small : (Instr.advance 0#4 .forward (-32769)).wf = false := by decide
theorem test_wf_load_count_too_large : (Instr.load 0#4 .backward 32768).wf = false := by decide
theorem test_wf_load_count_too_small : (Instr.load 0#4 .backward (-32769)).wf = false := by decide
theorem test_wf_bounds : (Instr.advance 15#4 .backward 32767).wf = true ∧ (Instr.load 15#4 .backward (-32768)).wf = true := by
  decide

/-! ## Decoding: words written out from 30_encoding.md R92 to R98 -/

/-- R94, R98: OPC 0x0. -/
theorem test_decode_nop : decodeCommand 0b0000_0000_0000_0000_0000_0000_0000_0000#32 = .ok .nop := by decide
/-- R92: OPC 0x1, MOTOR 1, DIR 1, COUNT 5 (R113). -/
theorem test_decode_advance : decodeCommand 0b0001_0001_1000_0000_0000_0000_0000_0101#32 = .ok (.advance 1#4 .backward 5) := by
  decide
/-- R95: a count with bit 15 set is negative (V-ENC-3). -/
theorem test_decode_advance_negative :
    decodeCommand 0b0001_0000_0000_0000_1000_0000_0000_0000#32 = .ok (.advance 0#4 .forward (-32768)) := by decide
/-- R93: OPC 0x2, MOTOR 1. -/
theorem test_decode_deenergize : decodeCommand 0b0010_0001_0000_0000_0000_0000_0000_0000#32 = .ok (.deenergize 1#4) := by
  decide
/-- R92: OPC 0x3, MOTOR 2, DIR 1, COUNT 8 (R113). -/
theorem test_decode_load : decodeCommand 0b0011_0010_1000_0000_0000_0000_0000_1000#32 = .ok (.load 2#4 .backward 8) := by
  decide
/-- R98: OPC 0x4. -/
theorem test_decode_run : decodeCommand 0b0100_0000_0000_0000_0000_0000_0000_0000#32 = .ok .run := by decide
/-- R98: OPC 0x5. -/
theorem test_decode_clear : decodeCommand 0b0101_0000_0000_0000_0000_0000_0000_0000#32 = .ok .clear := by decide
/-- R98: OPC 0x6. -/
theorem test_decode_clrerr : decodeCommand 0b0110_0000_0000_0000_0000_0000_0000_0000#32 = .ok .clrerr := by decide
/-- R100: OPC 0x7 is illegal, whatever its other bits. -/
theorem test_decode_illegalOpc7 : decodeCommand 0b0111_0000_0000_0000_0000_0000_0000_0001#32 = .ok (.illegalOpc7 1#28) := by
  decide
/-- R100: so are the words with bit 31 set. -/
theorem test_decode_illegalOpc8F :
    decodeCommand 0b1111_0000_0000_0000_0000_0000_0000_0000#32 = .ok (.illegalOpc8F 0x7000_0000#31) := by decide
/-- R101: a reserved bit of a legal opcode (V-ENC-6, V-ENC-7). -/
theorem test_decode_reserved_advance : decodeCommand 0x1001_0001#32 = .error .reservedBits ∧
    decodeCommand 0x1040_0000#32 = .error .reservedBits := by decide
/-- V-ENC-8, V-ENC-10, V-ENC-11. -/
theorem test_decode_reserved_others : decodeCommand 0x0000_0001#32 = .error .reservedBits ∧
    decodeCommand 0x2080_0000#32 = .error .reservedBits ∧ decodeCommand 0x4000_0001#32 = .error .reservedBits := by decide
/-- R103: the CH_* offsets of the opcode table's encodings, `0001 mmmm 0000`, `0001 mmmm 0100`, `0001 mmmm 1000`. -/
theorem test_decode_wrChCtrl : decode ⟨0b0001_0010_0000, 3#32⟩ = .ok (.wrChCtrl 2#4 3#32) := by decide
theorem test_decode_wrChPins : decode ⟨0b0001_1111_0100, 9#32⟩ = .ok (.wrChPins 15#4 9#32) := by decide
theorem test_decode_wrChDelay : decode ⟨0b0001_0000_1000, 7#32⟩ = .ok (.wrChDelay 0#4 7#32) := by decide
/-- R65: the fourth word of a channel block, and a read-only register, are no instruction. -/
theorem test_decode_no_instruction :
    decode ⟨0x10C, 0#32⟩ = .error .notAnInstruction ∧ decode ⟨0x004, 0#32⟩ = .error .notAnInstruction := by decide
/-- The opcode table's own numbering: a command word of 32 bits, a register offset of 12 bits in two whole bytes. -/
theorem test_decodeTableWord :
    decodeTableWord 32 0x1180_0005 = some (.advance 1#4 .backward 5) ∧
      decodeTableWord 16 0x124 = some (.wrChPins 2#4 0#32) := by decide

/-! ## Single steps -/

/-- V-CTL-1, first of its two steps: nothing but the position changes. -/
theorem test_step_nop : after (step (accepted 0x0000_0000#32)) (fun t => (status t, t.cont)) =
    some ((0x0000_0001#32, 0#32), some .complete) := by decide

/-- R150 and V-LUT-1: backward starts at index L - 1 = 7; the count is 2 (V-ADV-3). -/
theorem test_step_advance : after (step (accepted 0x1080_0002#32)) (fun t => (t.advIdx, t.advLeft, t.cont, t.trace)) =
    some (7, 2, some (.advPhase 0), []) := by decide
/-- V-ADV-13: NM = 4, motor 5. -/
theorem test_step_advance_no_motor : after (step (accepted 0x1500_0001#32)) status =
    some (0x0000_0302#32, 0x0000_0051#32) := by decide

/-- V-DEEN-1: the decode step passes; V-DEEN-3: channel 2 is not constructed. -/
theorem test_step_deenergize : after (step (accepted 0x2100_0000#32)) (·.cont) = some (some (.deenergize 0)) := by decide
theorem test_step_deenergize_no_motor : after (step (accepted 0x2200_0000#32)) status =
    some (0x0000_0302#32, 0x0000_0022#32) := by decide

/-- V-LOAD-2: SLOT(0) = 0x8018_0005 (STATUS still shows BUSY, with LISTLEN 1). -/
theorem test_step_load : after (step (accepted 0x3180_0005#32)) (fun t => (readReg t 0x200, readReg t 0x004)) =
    some (0x8018_0005#32, 0x0001_0001#32) := by decide
/-- V-LOAD-8: the motor check comes before the full list. -/
theorem test_step_load_priority :
    after (step { accepted 0x3500_0001#32 with cfg := { referenceConfig with nslot := 2 }, slots := [slot 1 0, slot 1 0] })
      status = some (0x0002_0302#32, 0x0000_0053#32) := by decide

/-- V-RUN-3: after RUN's decode step a backward slot of motor 1 shows 0x801F_0005. -/
theorem test_step_run :
    after (step { accepted 0x4000_0000#32 with
      slots := [slot 3 0, { motor := 1#4, dir := .backward, remaining := 5, idx := 0 }] }) (fun t => readReg t 0x204) =
    some 0x801F_0005#32 := by decide
/-- V-RUN-6: motor 1 released (here: motor 2, never constructed, R223): the slot is named and the list cleared. -/
theorem test_step_run_bad_slot :
    after (step { accepted 0x4000_0000#32 with slots := [slot 2 0, { slot 1 0 with motor := 2#4 }] })
      (fun t => (status t, t.slots)) = some ((0x0000_0302#32, 0x1000_0024#32), []) := by decide

/-- V-CLR-1: the slots read 0. -/
theorem test_step_clear :
    after (step { accepted 0x5000_0000#32 with slots := [slot 1 0, slot 2 0] }) (fun t => (readReg t 0x200, readReg t 0x204)) =
    some (0#32, 0#32) := by decide

/-- V-CTL-2, first of its two steps: STATUS 0x0000_0602 before, only BUSY after. -/
theorem test_step_clrerr :
    after (step { accepted 0x6000_0000#32 with err := true, ecode := .pinFault, errinfo := 0x0806_0201#32 }) status =
    some (0x0000_0001#32, 0#32) := by decide
/-- V-CTL-4: an illegal CLRERR clears nothing and sets ERROVF. -/
theorem test_step_clrerr_illegal :
    after (step { accepted 0x6000_0001#32 with err := true, ecode := .pinFault, errinfo := 0x0806_0201#32 }) status =
    some (0x0000_0606#32, 0x0806_0201#32) := by decide

/-- V-CTL-5 and V-CTL-6. -/
theorem test_step_illegalOpc7 : after (step (accepted 0x7000_0000#32)) status = some (0x0000_0102#32, 0x0000_0007#32) := by
  decide
theorem test_step_illegalOpc8F : after (step (accepted 0xF000_0000#32)) status = some (0x0000_0102#32, 0x0000_000F#32) := by
  decide

/-- V-REG-7: bits [31:2] are dropped. -/
theorem test_step_wrChCtrl : after (step (hostTurn (.regWrite 32 0x100 0xFFFF_FFFF#32))) (fun t => readReg t 0x100) =
    some 0x0000_0003#32 := by decide
/-- V-CFG-5, the write itself: dropped with REGW and the channel recorded. -/
theorem test_step_wrChCtrl_busy :
    after (step { hostTurn (.regWrite 32 0x110 0#32) with busy := true, cont := some (.deenergize 0) })
      (fun t => (status t, readReg t 0x110)) = some ((0x0000_0403#32, 0x0000_0810#32), 1#32) := by decide
/-- V-ADV-19's setup: the low byte is pin index 0. -/
theorem test_step_wrChPins : after (step (hostTurn (.regWrite 32 0x104 0x0B0A_0908#32))) (fun t => ((t.chan 0#4).pin0, (t.chan 0#4).pin3)) =
    some (8#8, 11#8) := by decide
/-- V-CFG-4's setup. -/
theorem test_step_wrChDelay : after (step (hostTurn (.regWrite 32 0x108 0#32))) (fun t => (readReg t 0x108, readReg t 0x118)) =
    some (0#32, 500#32) := by decide

/-- V-ADV-16, its fourth step: pin 6 rejected in the first phase pattern. -/
theorem test_step_pin_fault :
    after (step ({ running 0x1000_0001#32 (.advPhase 2) with advLeft := 1 }.setOutEnabled 6#8 false))
      (fun t => (status t, t.pinLevel 7#8, t.cont)) = some ((0x0000_0602#32, 0x0806_0201#32), false, none) := by decide
/-- V-ADV-1: the fourth pin of pattern 0x8 is high. -/
theorem test_step_pin_write :
    after (step { running 0x1000_0001#32 (.advPhase 3) with advLeft := 1 }) (fun t => (t.trace, t.pinLevel 7#8)) =
    some ([.pinWrite 7#8 true], true) := by decide
/-- V-RUN-2: the slot after its first dwell is IDX 1, REMAINING 2. -/
theorem test_step_run_dwell : after (step (inRun .runDwell [slot 3 0] 0)) (fun t => (readReg t 0x200, t.trace)) =
    some (0x8001_0002#32, [.dwell 0#4 1000#32]) := by decide
/-- V-RUN-10's fault: slot 1, motor 1, pin 10. -/
theorem test_step_run_fault :
    after (step ((inRun (.runPhase 2) [slot 2 1, { slot 5 0 with motor := 1#4 }] 1).setOutEnabled 10#8 false))
      (fun t => (status t, t.slots)) = some ((0x0000_0602#32, 0x180A_0214#32), []) := by decide
/-- V-REG-1, V-REG-12, V-REG-13. -/
theorem test_step_reads :
    after (step (hostTurn (.regRead 32 0x00C))) (·.answers) = some [.data 0x0001_0804#32] ∧
    after (step (hostTurn (.regRead 32 0x002))) (·.answers) = some [.busError] ∧
    after (step (hostTurn (.regRead 16 0x004))) (·.answers) = some [.busError] := by decide

/-- The word at the fetch is the very next thing run, from reset. -/
theorem test_withFetchWord :
    after (step (State.reset.withFetchWord 32 0x7000_0000)) status = some (0x0000_0102#32, 0x0000_0007#32) ∧
    after (step (State.reset.withFetchWord 16 0x100)) (·.answers) = some [.ok] := by decide

/-! ## The assembler (30_encoding.md R105 to R113) -/

theorem test_assemble_advance :
    (readLine "advance m1, bwd, 5 ; five half-steps".toList) = some (some (.advance 1#4 .backward 5)) := by decide
theorem test_assemble_config :
    (readLine "config 0, half, 4, 5, 6, 7, 1000".toList).map (Option.map Stmt.expand) =
      some (some [wrTurn 0x104 0x0706_0504#32, wrTurn 0x108 1000#32, wrTurn 0x100 1#32]) := by decide
theorem test_assemble_runlist :
    (readLine "runlist (0,fwd,3), (1,fwd,5)".toList).map (Option.map Stmt.expand) =
      some (some [wrTurn 0 0x5000_0000#32, .wait, wrTurn 0 0x3000_0003#32, .wait, wrTurn 0 0x3100_0005#32, .wait,
        wrTurn 0 0x4000_0000#32, .wait]) := by decide
theorem test_assemble_wr : readLine "wr CH_CTRL(0), 0x3".toList = some (some (.wr (.chCtrl 0#4) 3#32)) := by decide
/-- R7: `_` separates digits; log 24: it stands between two of them. -/
theorem test_assemble_separator :
    readLine "wr 0x104, 0x0706_0504".toList = some (some (.wr (.offset 0x104) 0x0706_0504#32)) ∧
      readLine "wr 0x104, 0x1_".toList = none ∧ readLine "wr 0x104, 0x1__2".toList = none := by decide

/-! ## Witnesses: states and operands that meet all the hypotheses of a statement together -/

theorem witness_DecodeOfEncode :
    (Instr.advance 15#4 .backward (-32768)).wf = true ∧ (Instr.load 15#4 .forward 32767).wf = true := by decide

theorem witness_EncodeOfDecode :
    decode ⟨0x000, 0x1180_0005#32⟩ = .ok (.advance 1#4 .backward 5) ∧
      decode ⟨0x1F8, 7#32⟩ = .ok (.wrChDelay 15#4 7#32) := by decide

theorem witness_ChannelWriteSelectedByOffset :
    (0xFFF < 0x1000 ∧ 0xFFF &&& 0xF0F = 0xF0F) ∧ 0x100 &&& 0xF0F = 0x100 ∧ 0x1F0 &&& 0xF0F = 0x100 ∧
      0x104 &&& 0xF0F = 0x104 ∧ 0x1F4 &&& 0xF0F = 0x104 ∧ 0x108 &&& 0xF0F = 0x108 ∧ 0x1F8 &&& 0xF0F = 0x108 ∧
      0x10C &&& 0xF0F = 0x10C ∧ 0x200 &&& 0xF0F = 0x200 := by decide

/-- The accepted states of these tests are accepted. -/
theorem accepted_ok (w : Word) : Accepted w (accepted w) := ⟨rfl, rfl, rfl, rfl⟩

theorem witness_StepRunsAcceptedCommand :
    (accepted 0x1180_0005#32).cont = some .decode ∧
      decodeCommand (accepted 0x1180_0005#32).cmdl = .ok (.advance 1#4 .backward 5) ∧
      (accepted 0x1180_0005#32).agenda = [] ∧
      ({ accepted 0x1180_0005#32 with agenda := [.sequencer, .wait] } : State).agenda = .sequencer :: [.wait] := by decide

theorem witness_StepRunsChannelWrite :
    (hostTurn (.regWrite 32 0x1F8 7#32)).agenda = [.host (.regWrite 32 0x1F8 7#32)] ∧
      decodeChannelWrite 0x1F8 7#32 = some (.wrChDelay 15#4 7#32) := by decide

theorem witness_NopOnlyCompletes : Accepted 0x0000_0000#32 (accepted 0x0000_0000#32) := accepted_ok _

theorem witness_ClrerrClearsErrorRecord :
    Accepted 0x6000_0000#32 { accepted 0x6000_0000#32 with err := true, ecode := .busy, errinfo := 0x13#32 } :=
  ⟨rfl, rfl, rfl, rfl⟩

/-- One word for each part of R202. -/
theorem witness_AcceptedIllegalWordRaises :
    (IllegalWord 0x7000_0000#32 ∧ IllegalWord 0xFFFF_FFFF#32 ∧ IllegalWord 0x0000_0001#32 ∧ IllegalWord 0x4800_0000#32 ∧
      IllegalWord 0x5000_0001#32 ∧ IllegalWord 0x6000_0001#32 ∧ IllegalWord 0x1001_0001#32 ∧ IllegalWord 0x3040_0000#32 ∧
      IllegalWord 0x2080_0000#32) ∧
      Accepted 0x1001_0001#32 (accepted 0x1001_0001#32) := by
  refine ⟨?_, accepted_ok _⟩
  refine ⟨?_, ?_, ?_, ?_, ?_, ?_, ?_, ?_, ?_⟩ <;> unfold IllegalWord <;> decide

theorem witness_AdvanceDecodeStep :
    b0.motorOk 2#4 = false ∧ b0.motorOk 4#4 = false ∧ (b0.motorOk 0#4 = true ∧ (-1 : Int) < 0) ∧
      (b0.motorOk 1#4 = true ∧ (0 : Int) ≤ 0) := by decide

/-- Under `enable_bit` with every pin enabled the host accepts any events. -/
theorem allAccepted_enabled (s : State) (hm : s.cfg.hostModel = .enableBit) (he : s.outEn = Vector.replicate 256 true)
    (evs : List Event) : AllAccepted s evs := by
  unfold AllAccepted
  rw [hm]
  intro p _
  simp [State.outEnabled, he]

theorem witness_AdvanceCompletes :
    (0 : Int) ≤ 32767 ∧ (32767 : Int) ≤ 32767 ∧
      Accepted (commandWord (.advance 1#4 .backward 32767)) (accepted (commandWord (.advance 1#4 .backward 32767))) ∧
      (accepted (commandWord (.advance 1#4 .backward 32767))).motorOk 1#4 = true ∧
      AllAccepted (accepted (commandWord (.advance 1#4 .backward 32767)))
        (advanceEvents (accepted (commandWord (.advance 1#4 .backward 32767))) 1#4 .backward (32767 : Int).toNat) :=
  ⟨by decide, by decide, accepted_ok _, rfl, allAccepted_enabled _ rfl rfl _⟩

theorem witness_DeenergizeDecodeStep : b0.motorOk 15#4 = false ∧ b0.motorOk 1#4 = true := by decide

theorem witness_DeenergizeCompletes :
    Accepted (commandWord (.deenergize 1#4)) (accepted (commandWord (.deenergize 1#4))) ∧
      (accepted (commandWord (.deenergize 1#4))).motorOk 1#4 = true ∧
      AllAccepted (accepted (commandWord (.deenergize 1#4))) (deenergizeEvents (accepted (commandWord (.deenergize 1#4))) 1#4) :=
  ⟨accepted_ok _, rfl, allAccepted_enabled _ rfl rfl _⟩

theorem witness_AdvanceDwellStep :
    (running 0x1000_0002#32 .advDwell).cont = some .advDwell ∧ (running 0x1000_0002#32 .advDwell).agenda = [] := by decide

/-! ### States that meet the invariant -/

/-- B0's channels 4 to 15 are absent. -/
theorem absent_b0 : ∀ m : MotorId, referenceConfig.nm ≤ m.toNat → b0.chan m = Channel.unbuilt := by decide

/-- A state over B0's parameters and channels, without an error, meets the invariant if its own parts do. -/
theorem inv_of (s : State) (hc : s.cfg = referenceConfig) (hch : s.chans = b0.chans) (hb : s.busy = s.cont.isSome)
    (he : s.err = false ∧ s.errovf = false ∧ s.ecode = .none ∧ s.errinfo = 0#32) (hl : s.slots.length ≤ 8)
    (hs : ∀ sl ∈ s.slots, sl.remaining ≤ 32767 ∧ sl.idx < 8)
    (hn : s.advIdx < 8 ∧ s.advLeft ≤ 32767 ∧ s.runTotal < 2 ^ 20 ∧ s.runDone ≤ s.runTotal ∧ s.runCur < 16)
    (hk : ContOk s) : StateInv s where
  cfg := by rw [hc]; decide
  busy := hb
  listFits := by rw [hc]; exact hl
  slots := hs
  absent m hm := by
    rw [hc] at hm
    rw [chan_congr b0 s hch]
    exact absent_b0 m hm
  noError _ := he.2
  someError h := by simp [he.1] at h
  errinfoReserved := by rw [he.2.2.2]; decide
  advIdx := hn.1
  advLeft := hn.2.1
  runTotal := hn.2.2.1
  runDone := hn.2.2.2.1
  runCur := hn.2.2.2.2
  cont := hk

/-- B0, and an accepted command, meet it. -/
theorem inv_b0 : StateInv b0 :=
  inv_of _ rfl rfl rfl ⟨rfl, rfl, rfl, rfl⟩ (by decide) (by decide) (by decide) trivial

theorem inv_accepted (w : Word) (turns : List Turn) : StateInv { accepted w with agenda := turns } :=
  inv_of _ rfl rfl rfl ⟨rfl, rfl, rfl, rfl⟩ (by simp [accepted, b0, State.reset]) (by simp [accepted, b0, State.reset])
    (by simp [accepted, b0, State.reset]) trivial

/-- ADVANCE of channel 0 at pin 3 of its only phase pattern. -/
def atPhase : State := { running 0x1000_0001#32 (.advPhase 3) with advLeft := 1 }

theorem inv_atPhase : StateInv atPhase :=
  inv_of _ rfl rfl rfl ⟨rfl, rfl, rfl, rfl⟩ (by decide) (by decide) (by decide)
    ⟨⟨1, by decide, by decide⟩, by decide, by decide, by decide⟩

theorem inv_atDeenergize : StateInv (running 0x2100_0000#32 (.deenergize 3)) :=
  inv_of _ rfl rfl rfl ⟨rfl, rfl, rfl, rfl⟩ (by decide) (by decide) (by decide) ⟨.inr (by decide), by decide⟩

/-- A RUN of one slot with one step left. -/
theorem inv_runDwell_last : StateInv (inRun .runDwell [slot 1 0] 0) :=
  inv_of _ rfl rfl rfl ⟨rfl, rfl, rfl, rfl⟩ (by decide) (by decide) (by decide)
    ⟨⟨by decide, by decide, by decide⟩, slot 1 0, by decide, by decide⟩

/-- A RUN whose cursor, at the last slot, wraps over a finished slot to itself. -/
theorem inv_runDwell_wrap : StateInv (inRun .runDwell [slot 0 0, slot 2 7] 1) :=
  inv_of _ rfl rfl rfl ⟨rfl, rfl, rfl, rfl⟩ (by decide) (by decide) (by decide)
    ⟨⟨by decide, by decide, by decide⟩, slot 2 7, by decide, by decide⟩

theorem inv_runPhase : StateInv (inRun (.runPhase 0) [slot 0 0, slot 2 7] 1) :=
  inv_of _ rfl rfl rfl ⟨rfl, rfl, rfl, rfl⟩ (by decide) (by decide) (by decide)
    ⟨⟨by decide, by decide, by decide⟩, slot 2 7, by decide, by decide⟩

theorem inv_runDeenergize : StateInv (inRun (.runDeenergize 3) [slot 0 1, slot 2 7] 0) :=
  inv_of _ rfl rfl rfl ⟨rfl, rfl, rfl, rfl⟩ (by decide) (by decide) (by decide)
    ⟨⟨by decide, by decide, by decide⟩, slot 0 1, by decide, by decide⟩

theorem inv_runEnd : StateInv (inRun .runEnd [slot 0 0] 0) :=
  inv_of _ rfl rfl rfl ⟨rfl, rfl, rfl, rfl⟩ (by decide) (by decide) (by decide) ⟨⟨by decide, by decide, by decide⟩, by decide⟩

/-- One state for each kind of pending write, with an enabled pin. -/
theorem witness_AcceptedWriteSetsOnePin :
    (StateInv atPhase ∧ atPhase.agenda = [] ∧
      pendingWrite atPhase = some ({ motor := 0#4, pat := 0x8#4, deen := false, slot := none }, 3) ∧
      NextWriteAccepted atPhase ((atPhase.chan 0#4).pin 3)) ∧
    (StateInv (running 0x2100_0000#32 (.deenergize 3)) ∧
      pendingWrite (running 0x2100_0000#32 (.deenergize 3)) =
        some ({ motor := 1#4, pat := 0#4, deen := true, slot := none }, 3)) ∧
    (StateInv (inRun (.runPhase 0) [slot 0 0, slot 2 7] 1) ∧
      pendingWrite (inRun (.runPhase 0) [slot 0 0, slot 2 7] 1) =
        some ({ motor := 0#4, pat := 0x9#4, deen := false, slot := some 1 }, 0)) ∧
    (StateInv (inRun (.runDeenergize 3) [slot 0 1, slot 2 7] 0) ∧
      pendingWrite (inRun (.runDeenergize 3) [slot 0 1, slot 2 7] 0) =
        some ({ motor := 0#4, pat := 0#4, deen := true, slot := some 0 }, 3)) :=
  ⟨⟨inv_atPhase, rfl, by decide, (by decide : atPhase.outEnabled ((atPhase.chan 0#4).pin 3) = true)⟩, ⟨inv_atDeenergize, by decide⟩,
    ⟨inv_runPhase, by decide⟩, ⟨inv_runDeenergize, by decide⟩⟩

/-- A disabled pin, outside RUN and inside it. -/
theorem witness_RejectedWriteEndsCommand :
    ((atPhase.setOutEnabled 7#8 false).agenda = [] ∧
      pendingWrite (atPhase.setOutEnabled 7#8 false) =
        some ({ motor := 0#4, pat := 0x8#4, deen := false, slot := none }, 3) ∧
      ¬ NextWriteAccepted (atPhase.setOutEnabled 7#8 false) (((atPhase.setOutEnabled 7#8 false).chan 0#4).pin 3)) ∧
    (((inRun (.runPhase 0) [slot 2 7] 0).setOutEnabled 4#8 false).agenda = [] ∧
      pendingWrite ((inRun (.runPhase 0) [slot 2 7] 0).setOutEnabled 4#8 false) =
        some ({ motor := 0#4, pat := 0x9#4, deen := false, slot := some 0 }, 0) ∧
      ¬ NextWriteAccepted ((inRun (.runPhase 0) [slot 2 7] 0).setOutEnabled 4#8 false) 4#8) :=
  ⟨⟨rfl, by decide, (by decide : ¬ (atPhase.setOutEnabled 7#8 false).outEnabled 7#8 = true)⟩,
    ⟨rfl, by decide, (by decide : ¬ ((inRun (.runPhase 0) [slot 2 7] 0).setOutEnabled 4#8 false).outEnabled 4#8 = true)⟩⟩

/-- B0 with a list of `n` slots, and with NSLOT = 2. -/
def listOf (n : Nat) : State := { b0 with cfg := { referenceConfig with nslot := 2 }, slots := List.replicate n (slot 1 0) }

theorem witness_LoadAppendsOneSlot :
    (listOf 2).motorOk 4#4 = false ∧ ((listOf 2).motorOk 0#4 = true ∧ (-1 : Int) < 0) ∧
      ((listOf 2).motorOk 0#4 = true ∧ (listOf 2).listLen = (listOf 2).cfg.nslot) ∧
      ((listOf 1).motorOk 0#4 = true ∧ (listOf 1).listLen < (listOf 1).cfg.nslot) ∧
      (accepted (commandWord (.load 1#4 .backward 32767))).motorOk 1#4 = true ∧
      (accepted (commandWord (.load 1#4 .backward 32767))).listLen < 8 ∧
      Accepted (commandWord (.load 1#4 .backward 32767)) (accepted (commandWord (.load 1#4 .backward 32767))) :=
  ⟨by decide, by decide, by decide, by decide, rfl, by decide, accepted_ok _⟩

theorem witness_ClearEmptiesList : Accepted 0x5000_0000#32 { accepted 0x5000_0000#32 with slots := [slot 1 0] } :=
  ⟨rfl, rfl, rfl, rfl⟩

/-- The failing slot is the second one, and the first one. -/
theorem witness_RunRejectsFirstBadSlot :
    ([slot 2 0, { slot 1 0 with motor := 2#4 }][1]? = some { slot 1 0 with motor := 2#4 } ∧ b0.motorOk 2#4 = false ∧
      ∀ k < 1, ∀ sk : Slot, [slot 2 0, { slot 1 0 with motor := 2#4 }][k]? = some sk → b0.motorOk sk.motor = true) ∧
    ([{ slot 1 0 with motor := 15#4 }][0]? = some { slot 1 0 with motor := 15#4 } ∧ b0.motorOk 15#4 = false) := by
  refine ⟨⟨by decide, by decide, ?_⟩, by decide, by decide⟩
  intro k hk sk h
  obtain rfl : k = 0 := by omega
  cases h
  decide

/-- A list with work in its second slot, and one without work. -/
theorem witness_RunStartsEverySlot :
    ((∀ sl ∈ [slot 0 0, slot 3 0], b0.motorOk sl.motor = true) ∧ 0 < ([slot 0 0, slot 3 0].map Slot.remaining).sum) ∧
    ((∀ sl ∈ [slot 0 0], b0.motorOk sl.motor = true) ∧ ([slot 0 0].map Slot.remaining).sum = 0) := by decide

theorem witness_RunCompletes :
    Accepted 0x4000_0000#32 { accepted 0x4000_0000#32 with slots := [slot 3 0, { slot 32767 0 with motor := 1#4 }] } ∧
      (∀ sl ∈ [slot 3 0, { slot 32767 0 with motor := 1#4 }],
        ({ accepted 0x4000_0000#32 with slots := [slot 3 0, { slot 32767 0 with motor := 1#4 }] } : State).motorOk sl.motor =
          true) ∧
      AllAccepted { accepted 0x4000_0000#32 with slots := [slot 3 0, { slot 32767 0 with motor := 1#4 }] }
        (runEvents { accepted 0x4000_0000#32 with slots := [slot 3 0, { slot 32767 0 with motor := 1#4 }] }) :=
  ⟨⟨rfl, rfl, rfl, rfl⟩, by decide, allAccepted_enabled _ rfl rfl _⟩

theorem witness_RunWithoutWorkMakesNoEvent :
    Accepted 0x4000_0000#32 { accepted 0x4000_0000#32 with slots := [slot 0 3] } ∧
      (∀ sl ∈ [slot 0 3], b0.motorOk sl.motor = true ∧ sl.remaining = 0) := ⟨⟨rfl, rfl, rfl, rfl⟩, by decide⟩

/-- The last step of a slot; and a cursor that goes the whole way round, over a finished slot. -/
theorem witness_RunDwellStep :
    (StateInv (inRun .runDwell [slot 1 0] 0) ∧ (inRun .runDwell [slot 1 0] 0).agenda = [] ∧
      (inRun .runDwell [slot 1 0] 0).cont = some .runDwell ∧
      (inRun .runDwell [slot 1 0] 0).slots[(inRun .runDwell [slot 1 0] 0).runCur]? = some (slot 1 0) ∧
      (slot 1 0).remaining = 1) ∧
    (StateInv (inRun .runDwell [slot 0 0, slot 2 7] 1) ∧ (inRun .runDwell [slot 0 0, slot 2 7] 1).agenda = [] ∧
      (inRun .runDwell [slot 0 0, slot 2 7] 1).cont = some .runDwell ∧
      (inRun .runDwell [slot 0 0, slot 2 7] 1).slots[(inRun .runDwell [slot 0 0, slot 2 7] 1).runCur]? = some (slot 2 7) ∧
      1 < (slot 2 7).remaining) :=
  ⟨⟨inv_runDwell_last, rfl, rfl, rfl, rfl⟩, ⟨inv_runDwell_wrap, rfl, rfl, rfl, by decide⟩⟩

theorem witness_OneSlotRunIsAdvance :
    ({ b0 with slots := [slot 1 5] } : State).slots = [{ motor := 0#4, dir := .forward, remaining := 1, idx := 5 }] ∧
      1 ≤ 1 ∧
      ({ b0 with slots := [slot 0 5] } : State).slots = [{ motor := 0#4, dir := .forward, remaining := 0, idx := 5 }] := by
  decide

theorem witness_CommandAcceptedOrDropped :
    ((hostTurn (.regWrite 32 0x000 1#32)).agenda = [.host (.regWrite 32 0x000 1#32)] ∧
      (hostTurn (.regWrite 32 0x000 1#32)).busy = false) ∧
    ({ hostTurn (.regWrite 32 0x000 1#32) with busy := true } : State).busy = true := by decide

/-- Channel 3 exists with NM = 4 and channel 4 does not; idle and busy. -/
theorem witness_WriteChCtrl :
    ((3#4).toNat < b0.cfg.nm ∧ b0.busy = false) ∧ ((3#4).toNat < b0.cfg.nm ∧ (accepted 0#32).busy = true) ∧
      b0.cfg.nm ≤ (4#4).toNat := by decide

theorem witness_WriteChPins :
    ((0#4).toNat < b0.cfg.nm ∧ b0.busy = false) ∧ ((0#4).toNat < b0.cfg.nm ∧ (accepted 0#32).busy = true) ∧
      b0.cfg.nm ≤ (15#4).toNat := by decide

theorem witness_WriteChDelay :
    ((3#4).toNat < b0.cfg.nm ∧ b0.busy = false) ∧ ((3#4).toNat < b0.cfg.nm ∧ (accepted 0#32).busy = true) ∧
      b0.cfg.nm ≤ (4#4).toNat := by decide

/-- A width, an alignment and an offset that are refused, for a read and a write. -/
theorem witness_RefusedAccessChangesNothing :
    ¬ (16 = 32 ∧ 0x004 % 4 = 0 ∧ 0x004 < 0x400) ∧ ¬ (32 = 32 ∧ 0x002 % 4 = 0 ∧ 0x002 < 0x400) ∧
      ¬ (32 = 32 ∧ 0x400 % 4 = 0 ∧ 0x400 < 0x400) ∧
      (hostTurn (.regRead 32 0x400)).agenda = [.host (.regRead 32 0x400)] ∧
      (hostTurn (.regWrite 32 0x400 1#32)).agenda = [.host (.regWrite 32 0x400 1#32)] := by decide

theorem witness_ReadHasNoSideEffect :
    0x3FC % 4 = 0 ∧ 0x3FC < 0x400 ∧ (hostTurn (.regRead 32 0x3FC)).agenda = [.host (.regRead 32 0x3FC)] := by decide

/-- The bounds of each range, with NM = 4 and NSLOT = 8; the ranges' one outcome is the same. -/
theorem witness_ReservedAndReadOnlyOffsets :
    (0x010 % 4 = 0 ∧ 0x0FC % 4 = 0 ∧ 0x010 < 0x100 ∧ 0x0FC < 0x100) ∧ (0x10C % 16 = 0xC ∧ 0x1FC % 16 = 0xC) ∧
      (b0.cfg.nm ≤ (0x140 - 0x100) / 16 ∧ b0.cfg.nm ≤ (0x1F8 - 0x100) / 16) ∧
      (b0.cfg.nslot ≤ (0x220 - 0x200) / 4 ∧ b0.cfg.nslot ≤ (0x23C - 0x200) / 4) ∧ (0x240 ≤ 0x3FC ∧ 0x3FC < 0x400) ∧
      (hostTurn (.regWrite 32 0x23C 1#32)).agenda = [.host (.regWrite 32 0x23C 1#32)] ∧
      (hostTurn (.regWrite 32 0x004 1#32)).agenda = [.host (.regWrite 32 0x004 1#32)] ∧
      (hostTurn (.regWrite 32 0x008 1#32)).agenda = [.host (.regWrite 32 0x008 1#32)] ∧
      (hostTurn (.regWrite 32 0x00C 1#32)).agenda = [.host (.regWrite 32 0x00C 1#32)] := by decide

/-- A state without an error and with one loaded slot; slot 0 is loaded, slots 1 to 15 are not. -/
theorem witness_ReadOnlyRegisterLayout :
    StateInv (inRun .runDwell [slot 1 0] 0) ∧ (inRun .runDwell [slot 1 0] 0).err = false ∧
      (inRun .runDwell [slot 1 0] 0).slots[0]? = some (slot 1 0) ∧
      (inRun .runDwell [slot 1 0] 0).slots.length ≤ 15 ∧ 15 < 16 := ⟨inv_runDwell_last, rfl, rfl, by decide, by decide⟩

/-- Writes to CH_PINS(3) and CH_DELAY(0) of an idle block, a byte read and a half-word write. -/
theorem witness_WindowIsLittleEndian :
    (b0.busy = false ∧ (3#4).toNat < b0.cfg.nm ∧
      (hostTurn (.regWrite 32 (0x104 + 0x10 * (3#4).toNat) 0x0B0A_0908#32)).agenda =
        .host (.regWrite 32 (0x104 + 0x10 * (3#4).toNat) 0x0B0A_0908#32) :: []) ∧
    ((0#4).toNat < b0.cfg.nm ∧ (hostTurn (.regWrite 32 (0x108 + 0x10 * (0#4).toNat) 1000#32)).agenda =
        .host (.regWrite 32 (0x108 + 0x10 * (0#4).toNat) 1000#32) :: []) ∧
    (8 ≠ 32 ∧ (hostTurn (.regRead 8 0x107)).agenda = .host (.regRead 8 0x107) :: [] ∧
      (hostTurn (.regWrite 16 0x106 0#32)).agenda = .host (.regWrite 16 0x106 0#32) :: [] ∧ 16 ≠ 32) := by decide

theorem witness_HostChangesOnePin :
    (hostTurn (.setOutEn 255#8 true)).agenda = [.host (.setOutEn 255#8 true)] ∧
      (hostTurn (.setLevel 0#8 true)).agenda = [.host (.setLevel 0#8 true)] := by decide

theorem witness_ResetLoadsResetValues :
    ({ atPhase with agenda := [.host .reset] } : State).agenda = [.host .reset] := by decide

/-- An illegal word raises while ERR = 1. -/
theorem witness_FirstErrorIsSticky :
    ∃ t, step { accepted 0x7000_0000#32 with err := true, ecode := .busy } = .next t ∧
      ({ accepted 0x7000_0000#32 with err := true, ecode := .busy } : State).err = true ∧
      (accepted 0x7000_0000#32).agenda.head? ≠ some (.host .reset) ∧
      ¬ (SequencerTurn (accepted 0x7000_0000#32) ∧ (accepted 0x7000_0000#32).cont = some .decode ∧
        decodeCommand (accepted 0x7000_0000#32).cmdl = .ok .clrerr) :=
  ⟨_, rfl, rfl, by decide, fun h => absurd h.2.2 (by decide)⟩

/-- BUSY falls at `complete`, at RUN's end, at a raise in the decode step and at a rejected pin write (with ERR and ERROVF
already 1), and by reset. -/
theorem witness_BusyFallsOnlyAtTheEnd :
    (∃ t, step (running 0#32 .complete) = .next t ∧ (running 0#32 .complete).busy = true ∧ t.busy = false) ∧
    (∃ t, step (inRun .runEnd [] 0) = .next t ∧ (inRun .runEnd [] 0).busy = true ∧ t.busy = false) ∧
    (∃ t, step (accepted 0x7000_0000#32) = .next t ∧ (accepted 0x7000_0000#32).busy = true ∧ t.busy = false) ∧
    (∃ t, step ({ atPhase with err := true, errovf := true, ecode := .busy }.setOutEnabled 7#8 false) = .next t ∧
      ({ atPhase with err := true, errovf := true, ecode := .busy }.setOutEnabled 7#8 false).busy = true ∧
      t.busy = false) ∧
    (∃ t, step { accepted 0#32 with agenda := [.host .reset] } = .next t ∧ t.busy = false) :=
  ⟨⟨_, rfl, rfl, rfl⟩, ⟨_, rfl, rfl, rfl⟩, ⟨_, rfl, rfl, rfl⟩, ⟨_, rfl, rfl, rfl⟩, ⟨_, rfl, rfl⟩⟩

/-- A host write to a channel while busy; and a sequencer step. -/
theorem witness_ChannelsConstantWhileBusy :
    (∃ t, step { hostTurn (.regWrite 32 0x100 0#32) with busy := true } = .next t) ∧
    (∃ t, step (accepted 0#32) = .next t) ∧ SequencerTurn (accepted 0#32) :=
  ⟨⟨_, rfl⟩, ⟨_, rfl⟩, .inl rfl⟩

theorem witness_ParametersAreConstant : ∃ t, step { accepted 0#32 with agenda := [.host .reset] } = .next t := ⟨_, rfl⟩

/-- A pin write; a host turn that is none of the two changes; a host change. -/
theorem witness_PinsFollowTheTrace :
    (∃ t, step (running 0x2000_0000#32 (.deenergize 0)) = .next t) ∧
    ((∃ t, step (hostTurn (.regRead 32 0)) = .next t) ∧
      (∀ p b, (hostTurn (.regRead 32 0)).agenda.head? ≠ some (.host (.setLevel p b))) ∧
      (∀ p b, (hostTurn (.regRead 32 0)).agenda.head? ≠ some (.host (.setOutEn p b))) ∧
      ¬ SequencerTurn (hostTurn (.regRead 32 0))) :=
  ⟨⟨_, rfl⟩, ⟨_, rfl⟩, by simp [hostTurn], by simp [hostTurn], by simp [SequencerTurn, hostTurn]⟩

/-- A LOAD, a CLEAR and the end of a RUN. -/
theorem witness_ListLengthChanges :
    (StateInv (accepted 0x3000_0003#32) ∧ ∃ t, step (accepted 0x3000_0003#32) = .next t ∧ t.listLen = 1) ∧
    (StateInv (accepted 0x5000_0000#32) ∧ ∃ t, step (accepted 0x5000_0000#32) = .next t ∧ t.listLen = 0) ∧
    (StateInv (inRun .runEnd [slot 0 0] 0) ∧ (inRun .runEnd [slot 0 0] 0).busy = true ∧
      decodeCommand (inRun .runEnd [slot 0 0] 0).cmdl = .ok .run ∧
      ∃ t, step (inRun .runEnd [slot 0 0] 0) = .next t ∧ t.busy = false) :=
  ⟨⟨inv_accepted _ [], _, rfl, rfl⟩, ⟨inv_accepted _ [], _, rfl, rfl⟩, inv_runEnd, rfl, by decide, _, rfl, rfl⟩

theorem witness_StepKeepsInvariant :
    StateInv (accepted 0x3000_0003#32) ∧ ∃ t, step (accepted 0x3000_0003#32) = .next t := ⟨inv_accepted _ [], _, rfl⟩

theorem witness_StepNeverStops : StateInv atPhase ∧ StateInv (inRun .runDwell [slot 0 0, slot 2 7] 1) :=
  ⟨inv_atPhase, inv_runDwell_wrap⟩

theorem witness_EveryCommandEnds :
    StateInv (accepted 0x1000_7FFF#32) ∧ (accepted 0x1000_7FFF#32).agenda = [] := ⟨inv_accepted _ [], rfl⟩

theorem witness_WaitTerminates :
    StateInv { accepted 0x1000_7FFF#32 with agenda := [.wait] } ∧
      ({ accepted 0x1000_7FFF#32 with agenda := [.wait] } : State).agenda = .wait :: [] := ⟨inv_accepted _ _, rfl⟩

/-- Two accepted ADVANCEs that differ in every counter. -/
theorem witness_CountersCarryNothingOver :
    SameButCounters (accepted 0x1000_0001#32)
      { accepted 0x1000_0001#32 with advIdx := 7, advLeft := 9, runTotal := 5, runDone := 5, runCur := 3 } ∧
    (accepted 0x1000_0001#32).cont = some .decode ∧ b0.cont = none ∧
    ∃ s', Sys2Proof.core.run 1 (accepted 0x1000_0001#32) = .next s' := ⟨rfl, rfl, rfl, _, rfl⟩

theorem witness_TraversalClosedForm : 0 < 8 ∧ 0 < 4 ∧ 0 < 1 := by decide

theorem witness_ConsecutivePatternsDifferInOnePin :
    HalfTableOk b0.cfg.tableHalf ∧ (b0.chan 0#4).mode = .half := by decide

theorem witness_DirectionSymmetry : 8 % b0.tableLen 0#4 = 0 ∧ 0 % b0.tableLen 1#4 = 0 := by decide

theorem witness_ConfigConstructsChannel :
    b0.busy = false ∧ (3#4).toNat < b0.cfg.nm ∧
      ({ b0 with agenda := (Stmt.config 3#4 .full 1#8 2#8 3#8 255#8 9#32).expand } : State).agenda =
        (Stmt.config 3#4 .full 1#8 2#8 3#8 255#8 9#32).expand ∧
      ({ b0 with agenda := (Stmt.release 3#4).expand } : State).agenda = (Stmt.release 3#4).expand := by decide

/-- The two-motor scenario of R185, with a stale list and a standing error, and the bounds of a count. -/
theorem witness_RunlistRunsTheList :
    let items : List ListItem := [⟨0#4, .forward, 3⟩, ⟨1#4, .backward, 32767⟩, ⟨1#4, .forward, 0⟩]
    let s : State := { b0 with err := true, ecode := .busy, slots := [slot 4 0], agenda := (Stmt.runlist items).expand }
    s.busy = false ∧ s.cont = none ∧ s.agenda = (Stmt.runlist items).expand ∧ items.length ≤ s.cfg.nslot ∧
      (∀ x ∈ items, s.motorOk x.motor = true ∧ 0 ≤ x.count ∧ x.count ≤ 32767) ∧
      AllAccepted s (runEvents { s with slots := items.map fun x =>
        { motor := x.motor, dir := x.dir, remaining := x.count.toNat, idx := 0 } }) :=
  ⟨rfl, rfl, rfl, by decide, by decide, allAccepted_enabled _ rfl rfl _⟩

end Sys2Proof.Tests
end

section
/-! PROOF. Every step keeps the invariant (O47). First the facts about indexes, the decoder and the fields the invariant
does not read; then one lemma per shared operation; then one per step of the sequencer and of the host. -/

namespace Sys2Proof.Machine

variable {s t : State}

/-! ## Indexes stay inside their tables (40_phase_table_lut.md R120, R129) -/

theorem tableLen_pos (s : State) (m : MotorId) : 0 < s.tableLen m := by
  unfold State.tableLen
  cases (s.chan m).mode <;> decide

theorem tableLen_le (s : State) (m : MotorId) : s.tableLen m ≤ 8 := by
  unfold State.tableLen
  cases (s.chan m).mode <;> decide

theorem startIndex_lt (d : Dir) {len : Nat} (h : 0 < len) : startIndex d len < len := by
  cases d with
  | forward => exact h
  | backward => exact Nat.sub_one_lt_of_lt h

theorem nextIndex_lt (idx : Nat) (d : Dir) {len : Nat} (h : 0 < len) : nextIndex idx d len < len := by
  cases d <;> exact Nat.mod_lt _ h

/-! ## What the decoders can answer -/

theorem countField_le (w : Word) : countField w ≤ 32767 := by
  have := BitVec.two_mul_toInt_lt (x := w.extractLsb' 0 16)
  unfold countField
  omega

theorem eq_of_ifReservedZero {zero : Bool} {i k : Instr} (h : ifReservedZero zero k = .ok i) : i = k := by
  unfold ifReservedZero at h
  split at h <;> cases h
  rfl

/-- The instructions a command word can decode to, with their operands read from its fields. -/
theorem decodeCommand_cases {w : Word} {i : Instr} (h : decodeCommand w = .ok i) :
    i = .nop ∨ i = .advance (motorField w) (dirField w) (countField w) ∨ i = .deenergize (motorField w) ∨
      i = .load (motorField w) (dirField w) (countField w) ∨ i = .run ∨ i = .clear ∨ i = .clrerr ∨
      (∃ r, i = .illegalOpc7 r) ∨ ∃ r, i = .illegalOpc8F r := by
  unfold decodeCommand at h
  split at h
  case h_8 => cases h; simp
  case h_9 => cases h; simp
  all_goals simp [eq_of_ifReservedZero h]

/-- A CH_* offset decodes to a write of one channel. -/
theorem decodeChannelWrite_cases {off : Nat} {v : Word} {i : Instr} (h : decodeChannelWrite off v = some i) :
    ∃ m, i = .wrChCtrl m v ∨ i = .wrChPins m v ∨ i = .wrChDelay m v := by
  unfold decodeChannelWrite at h
  refine ⟨channelOfOffset off, ?_⟩
  split at h
  · split at h <;> cases h <;> simp
  · cases h

/-! ## The fields a continuation's promise reads -/

/-- The state with every field that `ContOk` does not read at its reset value. -/
def State.command (s : State) : State :=
  { State.reset with
    cfg := s.cfg, chans := s.chans, slots := s.slots, cmdl := s.cmdl, cont := s.cont, advIdx := s.advIdx,
    advLeft := s.advLeft, runTotal := s.runTotal, runDone := s.runDone, runCur := s.runCur }

theorem advanceOk_command : AdvanceOk s.command ↔ AdvanceOk s :=
  ⟨fun h => ⟨h.decoded, h.motor, h.inTable, h.left⟩, fun h => ⟨h.decoded, h.motor, h.inTable, h.left⟩⟩

theorem deenergizeOk_command : DeenergizeOk s.command ↔ DeenergizeOk s :=
  ⟨fun h => ⟨h.decoded, h.motor⟩, fun h => ⟨h.decoded, h.motor⟩⟩

theorem runOk_command : RunOk s.command ↔ RunOk s :=
  ⟨fun h => ⟨h.decoded, h.ready, h.counted⟩, fun h => ⟨h.decoded, h.ready, h.counted⟩⟩

theorem contOk_command : ContOk s.command ↔ ContOk s := by
  unfold ContOk
  simp only [advanceOk_command, deenergizeOk_command, runOk_command]
  rfl

theorem contOk_congr (h : t.command = s.command) (hs : ContOk s) : ContOk t := by
  rwa [← contOk_command, h, contOk_command]

/-- The promises of the phase steps and of the list do not read the continuation itself. -/
theorem advanceOk_continueWith (k : Cont) (h : AdvanceOk s) : AdvanceOk (continueWith k s) :=
  ⟨h.decoded, h.motor, h.inTable, h.left⟩

theorem deenergizeOk_continueWith (k : Cont) (h : DeenergizeOk s) : DeenergizeOk (continueWith k s) :=
  ⟨h.decoded, h.motor⟩

theorem runOk_continueWith (k : Cont) (h : RunOk s) : RunOk (continueWith k s) :=
  ⟨h.decoded, h.ready, h.counted⟩

/-- Nor does the list's promise read RUN_CUR. -/
theorem runOk_setRunCur (n : Nat) (h : RunOk s) : RunOk { s with runCur := n } :=
  ⟨h.decoded, h.ready, h.counted⟩

/-! ## The invariant and the shared operations

`StateInv (complete s)` is the invariant without what it says of BUSY and the continuation. -/

theorem inv_complete (h : StateInv s) : StateInv (complete s) :=
  { h with busy := rfl, cont := trivial }

theorem inv_of_complete (h : StateInv (complete s)) (hb : s.busy = s.cont.isSome) (hk : ContOk s) : StateInv s :=
  { h with busy := hb, cont := hk }

theorem inv_continueWith {k : Cont} (h : StateInv (complete s)) (hb : s.busy = true)
    (hk : ContOk (continueWith k s)) : StateInv (continueWith k s) :=
  inv_of_complete h hb hk

/-- The invariant reads neither the GPIO port nor the records of the run nor the agenda. -/
theorem inv_environment {outEn level : Vector Bool 256} {draws : Nat} {trace : List Event} {answers : List Answer}
    {agenda : List Turn} (h : StateInv s) :
    StateInv { s with
      outEn := outEn, level := level, draws := draws, trace := trace, answers := answers, agenda := agenda } :=
  { h with cont := contOk_congr (s := s) rfl h.cont }

theorem busy_of_cont {k : Cont} (h : StateInv s) (hk : s.cont = some k) : s.busy = true := by
  simp [h.busy, hk]

theorem cont_of_idle (h : StateInv s) (hb : s.busy = false) : s.cont = none := by
  simpa [hb] using h.busy

/-- ERRINFO's bits [15:12] are 0 in whatever a raise records (60_exceptions.md R229). -/
theorem pack_reserved (e : ErrInfo) : e.pack.extractLsb' 12 4 = 0#4 := by
  apply BitVec.eq_of_toNat_eq
  simp only [ErrInfo.pack, field_toNat, packed_toNat, toNat_cat, BitVec.toNat_ofNat]
  omega

theorem inv_recordError {code : ErrCode} (hc : code ≠ .none) (info : ErrInfo) (h : StateInv s) :
    StateInv (recordError code info s) := by
  have hcont : ContOk (recordError code info s) := contOk_congr (by simp [State.command]) h.cont
  cases he : s.err with
  | true =>
    rw [recordError_later s code info he] at hcont ⊢
    exact { h with noError := fun hf => absurd (he.symm.trans hf) (by decide), cont := hcont }
  | false =>
    rw [recordError_first s code info he] at hcont ⊢
    exact { h with
      noError := fun hf => absurd hf Bool.noConfusion, someError := fun _ => hc, errinfoReserved := pack_reserved info,
      cont := hcont }

theorem inv_complete_clearList (h : StateInv s) : StateInv (complete (clearList s)) :=
  { inv_complete h with listFits := Nat.zero_le _, slots := fun _ hm => absurd hm List.not_mem_nil }

theorem inv_raise {code : ErrCode} (hc : code ≠ .none) (info : ErrInfo) (inRun : Bool) (h : StateInv s) :
    StateInv (raise code info inRun s) := by
  have hr := inv_recordError hc info h
  unfold raise
  split
  · exact inv_complete_clearList hr
  · exact inv_complete hr

theorem inv_drawAnswer (h : StateInv s) : StateInv (drawAnswer s) := by
  unfold drawAnswer
  split
  · exact h
  · exact inv_environment h

theorem inv_acceptedWrite (p : PinId) (b : Bool) (h : StateInv s) : StateInv (acceptedWrite p b s) :=
  inv_environment (s := drawAnswer s) (inv_drawAnswer h)

theorem inv_resetBlock (h : StateInv s) : StateInv (resetBlock s) where
  cfg := h.cfg
  busy := rfl
  listFits := Nat.zero_le _
  slots _ hm := absurd hm List.not_mem_nil
  absent m _ := chan_resetBlock s m
  noError _ := ⟨rfl, rfl, rfl⟩
  someError := by simp
  errinfoReserved := by simp
  advIdx := by simp
  advLeft := by simp
  runTotal := by simp
  runDone := by simp
  runCur := by simp
  cont := trivial

/-! ## Sound outcomes -/

/-- If a step answers with a next state, that state meets the invariant. -/
def Sound (o : Outcome) : Prop := ∀ t, o = .next t → StateInv t

theorem sound_next (h : StateInv t) : Sound (.next t) := by
  intro u hu
  cases hu
  exact h

theorem sound_fault (r : Fault) : Sound (.fault r) := by
  intro u hu
  cases hu

/-- A pin write is sound if what follows an accepted one is (41_pwm_sequencer.md R142). -/
theorem sound_writePin {w : PatternWrite} {j : Fin 4} {next : State → Outcome} (h : StateInv s)
    (hnext : ∀ u, StateInv u → u.cont = s.cont → Sound (next u)) : Sound (writePin w j next s) := by
  obtain ⟨-, hw⟩ | ⟨-, hw⟩ := writePin_cases s w j next
  · rw [hw]
    exact hnext _ (inv_acceptedWrite _ _ h) (acceptedWrite_cont ..)
  · rw [hw]
    exact sound_next (inv_raise (by decide) _ _ (inv_drawAnswer h))

/-! ## ADVANCE and DEENERGIZE (41_pwm_sequencer.md R150, R156) -/

/-- Where ADVANCE goes next suits the number of phase-steps left. -/
theorem contOk_advanceHead
    (hd : ∃ cnt : Int, 0 ≤ cnt ∧ decodeCommand s.cmdl = .ok (.advance s.cmdMotor s.cmdDir cnt))
    (hm : s.motorOk s.cmdMotor = true) (hi : s.advIdx < s.tableLen s.cmdMotor) :
    ContOk (continueWith (advanceHead s.advLeft) s) := by
  unfold advanceHead
  split
  next hl => exact advanceOk_continueWith _ ⟨hd, hm, hi, hl⟩
  next => exact deenergizeOk_continueWith _ ⟨.inl hd, hm⟩

theorem sound_execAdvance (h : StateInv s) (hb : s.busy = true)
    (hd : decodeCommand s.cmdl = .ok (.advance s.cmdMotor s.cmdDir (countField s.cmdl))) :
    Sound (execAdvance s.cmdMotor s.cmdDir (countField s.cmdl) s) := by
  have hidx := startIndex_lt s.cmdDir (tableLen_pos s s.cmdMotor)
  have hcnt := countField_le s.cmdl
  unfold execAdvance
  split
  next hm =>
    split
    next => exact sound_next (inv_raise (by decide) _ _ h)
    next hneg =>
      refine sound_next (inv_continueWith ?_ hb (contOk_advanceHead ⟨_, Int.not_lt.mp hneg, hd⟩ hm hidx))
      exact { inv_complete h with
        advIdx := hidx.trans_le (tableLen_le s _), advLeft := Int.toNat_le.mpr hcnt }
  next => exact sound_next (inv_raise (by decide) _ _ h)

theorem sound_execDeenergize (h : StateInv s) (hb : s.busy = true)
    (hd : decodeCommand s.cmdl = .ok (.deenergize s.cmdMotor)) : Sound (execDeenergize s.cmdMotor s) := by
  unfold execDeenergize
  split
  next hm =>
    exact sound_next (inv_continueWith (inv_complete h) hb (deenergizeOk_continueWith _ ⟨.inr hd, hm⟩))
  next => exact sound_next (inv_raise (by decide) _ _ h)

theorem sound_advancePhaseStep {j : Fin 4} (h : StateInv s) (hk : s.cont = some (.advPhase j)) :
    Sound (advancePhaseStep j s) := by
  unfold advancePhaseStep
  split
  · exact sound_fault _
  · refine sound_writePin h fun u hu hcont => ?_
    have hcont : u.cont = some (.advPhase j) := hcont.trans hk
    have ha : AdvanceOk u := by simpa only [ContOk, hcont] using hu.cont
    refine sound_next (inv_continueWith (inv_complete hu) (busy_of_cont hu hcont) ?_)
    split <;> exact advanceOk_continueWith _ ha

theorem sound_advanceDwellStep (h : StateInv s) (hk : s.cont = some .advDwell) : Sound (advanceDwellStep s) := by
  have ha : AdvanceOk s := by simpa only [ContOk, hk] using h.cont
  have hidx := nextIndex_lt s.advIdx s.cmdDir (tableLen_pos s s.cmdMotor)
  have hb := busy_of_cont h hk
  refine sound_next (inv_continueWith ?_ hb (contOk_advanceHead ha.decoded ha.motor hidx))
  exact { inv_complete h with
    advIdx := hidx.trans_le (tableLen_le s _), advLeft := (Nat.sub_le _ _).trans h.advLeft }

theorem decodeCommand_ne_run_of_deenergizeOk (h : DeenergizeOk s) : decodeCommand s.cmdl ≠ .ok .run := by
  obtain ⟨⟨cnt, -, hd⟩ | hd, -⟩ := h <;> simp [hd]

theorem sound_deenergizeStep {j : Fin 4} (h : StateInv s) (hk : s.cont = some (.deenergize j)) :
    Sound (deenergizeStep j s) := by
  refine sound_writePin h fun u hu hcont => ?_
  have hcont : u.cont = some (.deenergize j) := hcont.trans hk
  have hd : DeenergizeOk u := by simpa only [ContOk, hcont] using hu.cont
  refine sound_next (inv_continueWith (inv_complete hu) (busy_of_cont hu hcont) ?_)
  split
  · exact decodeCommand_ne_run_of_deenergizeOk (s := u) hd
  · exact deenergizeOk_continueWith _ hd

/-! ## LOAD (42_step_scheduler.md R170) -/

theorem sound_execLoad (h : StateInv s) (hb : s.busy = true) {m : MotorId} {d : Dir}
    (hd : decodeCommand s.cmdl = .ok (.load m d (countField s.cmdl))) :
    Sound (execLoad m d (countField s.cmdl) s) := by
  have hcnt := countField_le s.cmdl
  unfold execLoad
  split
  next =>
    split
    next => exact sound_next (inv_raise (by decide) _ _ h)
    next =>
      split
      next hfits =>
        refine sound_next (inv_continueWith ?_ hb (by simp [ContOk, hd]))
        refine { inv_complete h with listFits := ?_, slots := fun sl hsl => ?_ }
        · simpa [State.listLen, Nat.succ_le_iff] using hfits
        · obtain hsl | hsl := List.mem_append.mp hsl
          · exact h.slots sl hsl
          · obtain rfl := List.mem_singleton.mp hsl
            exact ⟨Int.toNat_le.mpr hcnt, Nat.zero_lt_succ 7⟩
      next => exact sound_next (inv_raise (by decide) _ _ h)
  next => exact sound_next (inv_raise (by decide) _ _ h)

/-! ## RUN (42_step_scheduler.md R174 to R179) -/

/-- A list within NSLOT, its counts within their 16 bits, has a total within RUN_TOTAL's 20 bits. -/
theorem totalRemaining_le (slots : List Slot) (h : ∀ sl ∈ slots, sl.remaining ≤ 32767) :
    totalRemaining slots ≤ slots.length * 32767 := by
  simpa [totalRemaining] using List.sum_le_card_nsmul (slots.map Slot.remaining) 32767 (by simpa using h)

theorem listLen_le_16 (h : StateInv s) : s.slots.length ≤ 16 := by
  obtain ⟨-, -, -, hnslot, -⟩ := h.cfg
  exact h.listFits.trans hnslot

/-- The head of the loop goes to an active slot or to the end of the run. -/
theorem sound_runHead (h : StateInv (complete s)) (hb : s.busy = true) (hr : RunOk s) : Sound (runHead s) := by
  obtain ⟨n, -, hseek, hgo⟩ | ⟨-, -, hgo⟩ | ⟨hdone, hgo⟩ := runHead_cases s <;> rw [hgo]
  · obtain ⟨sl, hsl, hpos⟩ := seekActive_active _ _ _ _ hseek
    have hn : n < s.slots.length := (List.getElem?_eq_some_iff.mp hsl).1
    have hlen := listLen_le_16 h
    refine sound_next (inv_continueWith ?_ hb ⟨runOk_continueWith _ (runOk_setRunCur n hr), sl, hsl, hpos⟩)
    exact { h with runCur := hn.trans_le hlen }
  · exact sound_fault _
  · exact sound_next (inv_continueWith h hb ⟨runOk_continueWith _ hr, Nat.le_antisymm h.runDone hdone⟩)

/-- After a visit the cursor moves on inside the list. -/
theorem sound_runHead_advanceCursor {sl : Slot} (h : StateInv (complete s)) (hb : s.busy = true) (hr : RunOk s)
    (hsl : s.slots[s.runCur]? = some sl) : Sound (runHead (advanceCursor s)) := by
  have hlt : s.runCur < s.slots.length := (List.getElem?_eq_some_iff.mp hsl).1
  have hcur : (s.runCur + 1) % s.slots.length < s.slots.length := Nat.mod_lt _ (Nat.zero_lt_of_lt hlt)
  have hlen := listLen_le_16 h
  exact sound_runHead { h with runCur := hcur.trans_le hlen } hb (runOk_setRunCur _ hr)

/-- RUN's initialisation puts every index at its start and counts the work. -/
theorem inv_complete_startRun (h : StateInv s) : StateInv (complete (startRun s)) := by
  have htotal := totalRemaining_le s.slots fun sl hsl => (h.slots sl hsl).1
  have hlen := listLen_le_16 h
  refine { inv_complete h with
    listFits := ?_, slots := ?_, runTotal := ?_, runDone := Nat.zero_le _, runCur := Nat.zero_lt_succ 15 }
  · simpa using h.listFits
  · intro sl hsl
    obtain ⟨old, hold, rfl⟩ := List.mem_map.mp hsl
    exact ⟨(h.slots old hold).1, (startIndex_lt _ (tableLen_pos s _)).trans_le (tableLen_le s _)⟩
  · show totalRemaining s.slots < 2 ^ 20
    omega

theorem runOk_startRun (hd : decodeCommand s.cmdl = .ok .run) (hm : ∀ sl ∈ s.slots, s.motorOk sl.motor = true) :
    RunOk (startRun s) where
  decoded := hd
  ready sl hsl := by
    obtain ⟨old, hold, rfl⟩ := List.mem_map.mp hsl
    exact ⟨hm old hold, startIndex_lt _ (tableLen_pos s _)⟩
  counted := by simp

theorem sound_execRun (h : StateInv s) (hb : s.busy = true) (hd : decodeCommand s.cmdl = .ok .run) :
    Sound (execRun s) := by
  unfold execRun
  split
  next => exact sound_next (inv_raise (by decide) _ _ h)
  next hgood =>
    have hready := (firstBadSlot_none s 0 s.slots).mp hgood
    exact sound_runHead (inv_complete_startRun h) hb (runOk_startRun hd hready)

theorem sound_runPhaseStep {j : Fin 4} (h : StateInv s) (hk : s.cont = some (.runPhase j)) :
    Sound (runPhaseStep j s) := by
  unfold runPhaseStep
  split
  · exact sound_fault _
  · split
    · exact sound_fault _
    · refine sound_writePin h fun u hu hcont => ?_
      have hcont : u.cont = some (.runPhase j) := hcont.trans hk
      obtain ⟨hr, hactive⟩ : RunOk u ∧ ∃ sl, u.slots[u.runCur]? = some sl ∧ 0 < sl.remaining := by
        simpa only [ContOk, hcont] using hu.cont
      refine sound_next (inv_continueWith (inv_complete hu) (busy_of_cont hu hcont) ?_)
      split <;> exact ⟨runOk_continueWith _ hr, hactive⟩

/-- The state in which RUN's dwell step at slot `sl` has made its event and its updates. -/
def afterDwell (sl : Slot) (s : State) : State :=
  { dwell sl.motor s with slots := s.slots.set s.runCur (s.steppedSlot sl), runDone := s.runDone + 1 }

theorem runDwellStep_eq {sl : Slot} (hsl : s.slots[s.runCur]? = some sl) :
    runDwellStep s = if (s.steppedSlot sl).remaining = 0 then .next (continueWith (.runDeenergize 0) (afterDwell sl s))
      else runHead (advanceCursor (afterDwell sl s)) := by
  simp only [runDwellStep, hsl, afterDwell]

theorem getElem?_afterDwell {sl : Slot} (hsl : s.slots[s.runCur]? = some sl) :
    (afterDwell sl s).slots[(afterDwell sl s).runCur]? = some (s.steppedSlot sl) :=
  List.getElem?_set_self (List.getElem?_eq_some_iff.mp hsl).1

/-- Stepping the visited slot takes one from the work left and adds one to RUN_DONE. -/
theorem runOk_afterDwell {sl : Slot} (hr : RunOk s) (hsl : s.slots[s.runCur]? = some sl) (hpos : 0 < sl.remaining) :
    RunOk (afterDwell sl s) where
  decoded := hr.decoded
  ready x hx := by
    obtain hx | rfl := List.mem_or_eq_of_mem_set hx
    · exact hr.ready x hx
    · exact ⟨(hr.ready sl (List.mem_of_getElem? hsl)).1, nextIndex_lt _ _ (tableLen_pos s _)⟩
  counted := by
    have hset : totalRemaining (afterDwell sl s).slots + sl.remaining = totalRemaining s.slots + (sl.remaining - 1) :=
      totalRemaining_set s.slots s.runCur sl (s.steppedSlot sl) hsl
    have hcounted := hr.counted
    show s.runDone + 1 + totalRemaining (afterDwell sl s).slots = s.runTotal
    omega

theorem inv_complete_afterDwell {sl : Slot} (h : StateInv s) (hr : RunOk (afterDwell sl s))
    (hsl : s.slots[s.runCur]? = some sl) : StateInv (complete (afterDwell sl s)) := by
  have hslot := h.slots sl (List.mem_of_getElem? hsl)
  refine { inv_complete h with listFits := ?_, slots := fun x hx => ?_, runDone := ?_ }
  · simpa [afterDwell] using h.listFits
  · obtain hx | rfl := List.mem_or_eq_of_mem_set hx
    · exact h.slots x hx
    · exact ⟨(Nat.sub_le _ _).trans hslot.1, (nextIndex_lt _ _ (tableLen_pos s _)).trans_le (tableLen_le s _)⟩
  · exact Nat.le_of_add_right_le hr.counted.le

theorem sound_runDwellStep (h : StateInv s) (hk : s.cont = some .runDwell) : Sound (runDwellStep s) := by
  obtain ⟨hr, sl, hsl, hpos⟩ : RunOk s ∧ ∃ sl, s.slots[s.runCur]? = some sl ∧ 0 < sl.remaining := by
    simpa only [ContOk, hk] using h.cont
  have hb := busy_of_cont h hk
  have hr' := runOk_afterDwell hr hsl hpos
  have h' := inv_complete_afterDwell h hr' hsl
  have hsl' := getElem?_afterDwell hsl
  rw [runDwellStep_eq hsl]
  split
  next hzero => exact sound_next (inv_continueWith h' hb ⟨runOk_continueWith _ hr', _, hsl', hzero⟩)
  next => exact sound_runHead_advanceCursor h' hb hr' hsl'

theorem sound_runDeenergizeStep {j : Fin 4} (h : StateInv s) (hk : s.cont = some (.runDeenergize j)) :
    Sound (runDeenergizeStep j s) := by
  unfold runDeenergizeStep
  split
  · exact sound_fault _
  · refine sound_writePin h fun u hu hcont => ?_
    have hcont : u.cont = some (.runDeenergize j) := hcont.trans hk
    obtain ⟨hr, sl, hsl, hzero⟩ : RunOk u ∧ ∃ sl, u.slots[u.runCur]? = some sl ∧ sl.remaining = 0 := by
      simpa only [ContOk, hcont] using hu.cont
    have hb := busy_of_cont hu hcont
    split
    · exact sound_runHead_advanceCursor (inv_complete hu) hb hr hsl
    · exact sound_next (inv_continueWith (inv_complete hu) hb ⟨runOk_continueWith _ hr, sl, hsl, hzero⟩)

/-! ## The sequencer's steps -/

/-- The decode step of every command word, illegal ones included (41_pwm_sequencer.md R141). -/
theorem sound_decodeStep (h : StateInv s) (hk : s.cont = some .decode) : Sound (decodeStep s) := by
  have hb := busy_of_cont h hk
  unfold decodeStep
  split
  next i hd =>
    obtain rfl | rfl | rfl | rfl | rfl | rfl | rfl | ⟨r, rfl⟩ | ⟨r, rfl⟩ := decodeCommand_cases hd
    · exact sound_next (inv_continueWith (inv_complete h) hb (by simp [ContOk, hd]))
    · exact sound_execAdvance h hb hd
    · exact sound_execDeenergize h hb hd
    · exact sound_execLoad h hb hd
    · exact sound_execRun h hb hd
    · exact sound_next (inv_continueWith (inv_complete_clearList h) hb (by simp [ContOk, hd]))
    · refine sound_next (inv_continueWith ?_ hb (by simp [ContOk, hd]))
      exact { inv_complete h with
        noError := fun _ => ⟨rfl, rfl, rfl⟩, someError := by simp, errinfoReserved := by simp }
    · exact sound_next (inv_raise (by decide) _ _ h)
    · exact sound_next (inv_raise (by decide) _ _ h)
  next => exact sound_next (inv_raise (by decide) _ _ h)

theorem sound_sequencerStep (h : StateInv s) : Sound (sequencerStep s) := by
  unfold sequencerStep
  split
  next => exact sound_next h
  next hk => exact sound_decodeStep h hk
  next hk => exact sound_advancePhaseStep h hk
  next hk => exact sound_advanceDwellStep h hk
  next hk => exact sound_deenergizeStep h hk
  next hk => exact sound_runPhaseStep h hk
  next hk => exact sound_runDwellStep h hk
  next hk => exact sound_runDeenergizeStep h hk
  next => exact sound_next (inv_complete_clearList h)
  next => exact sound_next (inv_complete h)

/-! ## The host's steps -/

theorem inv_submit (w : Word) (h : StateInv s) : StateInv (submit w s) := by
  cases hb : s.busy with
  | false => rw [submit_idle s w hb]; exact { h with busy := rfl, cont := trivial }
  | true => rw [submit_busy s w hb]; exact inv_recordError (by decide) _ h

/-- A new channel value reaches an existing channel only, and only of an idle block. -/
theorem inv_writeChannel (m : MotorId) (f : Channel → Channel) (h : StateInv s) : StateInv (writeChannel m f s) := by
  obtain hm | hm := Nat.lt_or_ge m.toNat s.cfg.nm
  · cases hb : s.busy with
    | false =>
      rw [writeChannel_idle s m f hm hb]
      refine { h with absent := fun k hk => ?_, cont := ?_ }
      · have hne : k ≠ m := fun e => absurd hm (Nat.not_lt.mpr (e ▸ hk))
        rw [chan_setChan_ne s m k _ hne]
        exact h.absent k hk
      · simp [ContOk, cont_of_idle h hb]
    | true => rw [writeChannel_busy s m f hm hb]; exact inv_recordError (by decide) _ h
  · rw [writeChannel_absent s m f hm]
    exact h

theorem sound_admittedWrite (off : Nat) (v : Word) (h : StateInv s) : Sound (admittedWrite off v s) := by
  unfold admittedWrite
  split
  next => exact sound_next (inv_submit v h)
  next =>
    split
    next hi =>
      obtain ⟨m, rfl | rfl | rfl⟩ := decodeChannelWrite_cases hi <;> exact sound_next (inv_writeChannel m _ h)
    next => exact sound_next h

theorem inv_hostRead (width off : Nat) (h : StateInv s) : StateInv (hostRead width off s) := by
  rw [hostRead_eq]
  exact inv_environment h

theorem sound_hostStep (op : HostOp) (h : StateInv s) : Sound (hostStep op s) := by
  cases op with
  | regRead width off => exact sound_next (inv_hostRead width off h)
  | regWrite width off v =>
    unfold hostStep hostWrite
    dsimp only
    split
    · exact sound_admittedWrite off v (inv_environment h)
    · exact sound_next (inv_environment h)
  | setOutEn p b => exact sound_next (inv_environment h)
  | setLevel p b => exact sound_next (inv_environment h)
  | reset => exact sound_next (inv_resetBlock h)

theorem sound_waitStep (h : StateInv s) : Sound (waitStep s) := by
  have hread := inv_hostRead 32 0x004 h
  unfold waitStep
  split
  · exact sound_next (inv_environment hread)
  · exact sound_next hread

theorem sound_step (h : StateInv s) : Sound (step s) := by
  unfold step
  split
  · exact sound_sequencerStep h
  · exact sound_sequencerStep (inv_environment h)
  · exact sound_hostStep _ (inv_environment h)
  · exact sound_waitStep (inv_environment h)

/-- Settles O47: every outcome of a step, whoever moves, is sound. -/
theorem stepKeepsInvariant : Obligations.StepKeepsInvariant :=
  fun _ t h ht => sound_step h t ht

end Sys2Proof.Machine
end

section
/-! PROOF. The hidden counters of earlier commands are read by nothing (O51). The relation kept by every step: the two
states differ in the counters only, and agree in those that the rest of the running command reads. -/

namespace Sys2Proof.Machine

variable {s t : State}

/-! ## The hidden counters (10_state.md R34) -/

/-- The five hidden counters. -/
structure Counters where
  advIdx : Nat
  advLeft : Nat
  runTotal : Nat
  runDone : Nat
  runCur : Nat

def State.counters (s : State) : Counters := ⟨s.advIdx, s.advLeft, s.runTotal, s.runDone, s.runCur⟩

/-- The state with other values in its hidden counters. -/
def State.withCounters (s : State) (k : Counters) : State :=
  { s with
    advIdx := k.advIdx, advLeft := k.advLeft, runTotal := k.runTotal, runDone := k.runDone, runCur := k.runCur }

theorem sameButCounters_withCounters (s : State) (k : Counters) : SameButCounters s (s.withCounters k) := rfl

theorem exists_withCounters_of_sameButCounters (h : SameButCounters s t) : ∃ k, t = s.withCounters k :=
  ⟨t.counters, h⟩

/-- ADVANCE's counters agree. -/
def Counters.SameAdvance (k k' : Counters) : Prop := k'.advIdx = k.advIdx ∧ k'.advLeft = k.advLeft

/-- RUN's counters agree. -/
def Counters.SameRun (k k' : Counters) : Prop :=
  k'.runTotal = k.runTotal ∧ k'.runDone = k.runDone ∧ k'.runCur = k.runCur

/-- The counters that the command still reads agree, when the sequencer's next step is `c`: a command's decode step and
its last steps read none. -/
def Counters.AgreeAt (c : Option Cont) (k k' : Counters) : Prop :=
  match c with
  | some (.advPhase _) => k.SameAdvance k'
  | some .advDwell => k.SameAdvance k'
  | some (.runPhase _) => k.SameRun k'
  | some .runDwell => k.SameRun k'
  | some (.runDeenergize _) => k.SameRun k'
  | none => True
  | some .decode => True
  | some (.deenergize _) => True
  | some .runEnd => True
  | some .complete => True

/-- The counters of `s` that its running command still reads have the values `k` gives them. -/
abbrev State.Agrees (s : State) (k : Counters) : Prop := s.counters.AgreeAt s.cont k

/-- What neither moves the sequencer nor touches a counter keeps the agreement. -/
theorem agrees_congr {k : Counters} (hcont : t.cont = s.cont) (hcount : t.counters = s.counters) (h : s.Agrees k) :
    t.Agrees k := by
  rwa [State.Agrees, hcont, hcount]

theorem agreeAt_advanceHead {k k' : Counters} (left : Nat) (h : k.SameAdvance k') :
    k.AgreeAt (some (advanceHead left)) k' := by
  unfold advanceHead
  split
  · exact h
  · trivial

/-! ## The operations do not read the counters -/

section
variable (s : State) (k : Counters)

@[simp] theorem recordError_withCounters (code : ErrCode) (info : ErrInfo) :
    recordError code info (s.withCounters k) = (recordError code info s).withCounters k := by
  cases he : s.err with
  | false => rw [recordError_first s code info he, recordError_first (s.withCounters k) code info he]; rfl
  | true => rw [recordError_later s code info he, recordError_later (s.withCounters k) code info he]; rfl

@[simp] theorem raise_withCounters (code : ErrCode) (info : ErrInfo) (inRun : Bool) :
    raise code info inRun (s.withCounters k) = (raise code info inRun s).withCounters k := by
  unfold raise
  rw [recordError_withCounters]
  cases inRun <;> rfl

@[simp] theorem drawAnswer_withCounters : drawAnswer (s.withCounters k) = (drawAnswer s).withCounters k := by
  cases hm : s.cfg.hostModel <;> simp [drawAnswer, State.withCounters, hm]

@[simp] theorem acceptedWrite_withCounters (p : PinId) (lvl : Bool) :
    acceptedWrite p lvl (s.withCounters k) = (acceptedWrite p lvl s).withCounters k := by
  unfold acceptedWrite
  rw [drawAnswer_withCounters]
  rfl

@[simp] theorem counters_recordError (code : ErrCode) (info : ErrInfo) :
    (recordError code info s).counters = s.counters := by simp [State.counters]

@[simp] theorem counters_acceptedWrite (p : PinId) (b : Bool) : (acceptedWrite p b s).counters = s.counters := by
  simp [State.counters]

@[simp] theorem counters_hostRead (width off : Nat) : (hostRead width off s).counters = s.counters := by
  simp [State.counters]

@[simp] theorem chan_withCounters (m : MotorId) : (s.withCounters k).chan m = s.chan m := rfl

@[simp] theorem motorOk_withCounters (m : MotorId) : (s.withCounters k).motorOk m = s.motorOk m := rfl

@[simp] theorem listLen_withCounters : (s.withCounters k).listLen = s.listLen := rfl

@[simp] theorem withCounters_cfg : (s.withCounters k).cfg = s.cfg := rfl

@[simp] theorem withCounters_slots : (s.withCounters k).slots = s.slots := rfl

@[simp] theorem withCounters_cmdl : (s.withCounters k).cmdl = s.cmdl := rfl

@[simp] theorem pattern_withCounters (m : MotorId) (i : Nat) : (s.withCounters k).pattern m i = s.pattern m i := rfl

@[simp] theorem cmdMotor_withCounters : (s.withCounters k).cmdMotor = s.cmdMotor := rfl

@[simp] theorem cont_withCounters : (s.withCounters k).cont = s.cont := rfl

@[simp] theorem agenda_withCounters : (s.withCounters k).agenda = s.agenda := rfl

@[simp] theorem hostAccepts_withCounters (p : PinId) : hostAccepts (s.withCounters k) p = hostAccepts s p := rfl

@[simp] theorem firstBadSlot_withCounters (n : Nat) (slots : List Slot) :
    firstBadSlot (s.withCounters k) n slots = firstBadSlot s n slots := by
  induction slots generalizing n with
  | nil => rfl
  | cons sl rest ih => unfold firstBadSlot; rw [ih]; rfl

@[simp] theorem readReg_withCounters (off : Nat) : readReg (s.withCounters k) off = readReg s off := rfl

@[simp] theorem hostRead_withCounters (width off : Nat) :
    hostRead width off (s.withCounters k) = (hostRead width off s).withCounters k := by
  simp only [hostRead_eq, readReg_withCounters]
  rfl

@[simp] theorem submit_withCounters (w : Word) : submit w (s.withCounters k) = (submit w s).withCounters k := by
  cases hb : s.busy with
  | false => rw [submit_idle s w hb, submit_idle (s.withCounters k) w hb]; rfl
  | true => rw [submit_busy s w hb, submit_busy (s.withCounters k) w hb, recordError_withCounters]

@[simp] theorem writeChannel_withCounters (m : MotorId) (f : Channel → Channel) :
    writeChannel m f (s.withCounters k) = (writeChannel m f s).withCounters k := by
  obtain hm | hm := Nat.lt_or_ge m.toNat s.cfg.nm
  · cases hb : s.busy with
    | false => rw [writeChannel_idle s m f hm hb, writeChannel_idle (s.withCounters k) m f hm hb]; rfl
    | true =>
      rw [writeChannel_busy s m f hm hb, writeChannel_busy (s.withCounters k) m f hm hb, recordError_withCounters]
  · rw [writeChannel_absent s m f hm, writeChannel_absent (s.withCounters k) m f hm]

end

/-! ## Steps that follow each other -/

/-- `t` differs from `s` in no more than counters that the running command does not read again. -/
def Alike (s t : State) : Prop := ∃ k, t = s.withCounters k ∧ s.Agrees k

/-- Where the outcome `o` is a next state, `o'` is a next state like it. -/
def Follows (o o' : Outcome) : Prop := ∀ u, o = .next u → ∃ v, o' = .next v ∧ Alike u v

theorem follows_next {k : Counters} (h : s.Agrees k) : Follows (.next s) (.next (s.withCounters k)) := by
  rintro u ⟨⟩
  exact ⟨_, rfl, k, rfl, h⟩

/-- Where the command goes on at `c`, the agreement there is what is asked. -/
theorem follows_continueWith {c : Cont} {k : Counters} (h : s.counters.AgreeAt (some c) k) :
    Follows (.next (continueWith c s)) (.next (continueWith c (s.withCounters k))) :=
  follows_next (s := continueWith c s) h

theorem follows_fault (r : Fault) (o : Outcome) : Follows (.fault r) o := by
  intro u hu
  cases hu

theorem follows_raise (code : ErrCode) (info : ErrInfo) (inRun : Bool) (k : Counters) :
    Follows (.next (raise code info inRun s)) (.next (raise code info inRun (s.withCounters k))) := by
  rw [raise_withCounters]
  exact follows_next trivial

theorem follows_ite {p : Prop} [Decidable p] {a b a' b' : Outcome} (ha : p → Follows a a')
    (hb : ¬ p → Follows b b') : Follows (if p then a else b) (if p then a' else b') := by
  split
  next hp => exact ha hp
  next hp => exact hb hp

theorem follows_writePin {w : PatternWrite} {j : Fin 4} {next : State → Outcome} {k : Counters}
    (h : ∀ p b, Follows (next (acceptedWrite p b s)) (next ((acceptedWrite p b s).withCounters k))) :
    Follows (writePin w j next s) (writePin w j next (s.withCounters k)) := by
  unfold writePin
  rw [acceptedWrite_withCounters, drawAnswer_withCounters]
  exact follows_ite (fun _ => h _ _) fun _ => follows_raise _ _ _ k

/-! ## The decode step -/

/-- ADVANCE's decode step writes both its counters before any step reads them (41_pwm_sequencer.md R153). -/
theorem follows_execAdvance (m : MotorId) (d : Dir) (cnt : Int) (k : Counters) :
    Follows (execAdvance m d cnt s) (execAdvance m d cnt (s.withCounters k)) := by
  refine follows_ite (fun _ => follows_ite (fun _ => follows_raise _ _ _ k) fun _ => ?_) fun _ => follows_raise _ _ _ k
  exact follows_next (k := { k with advIdx := startIndex d (s.tableLen m), advLeft := cnt.toNat })
    (agreeAt_advanceHead _ ⟨rfl, rfl⟩)

theorem follows_execDeenergize (m : MotorId) (k : Counters) :
    Follows (execDeenergize m s) (execDeenergize m (s.withCounters k)) :=
  follows_ite (fun _ => follows_continueWith (c := .deenergize 0) (k := k) trivial) fun _ => follows_raise _ _ _ k

theorem follows_execLoad (m : MotorId) (d : Dir) (cnt : Int) (k : Counters) :
    Follows (execLoad m d cnt s) (execLoad m d cnt (s.withCounters k)) := by
  refine follows_ite (fun _ => follows_ite (fun _ => follows_raise _ _ _ k) fun _ => ?_) fun _ => follows_raise _ _ _ k
  refine follows_ite (fun _ => ?_) fun _ => follows_raise _ _ _ k
  exact follows_continueWith (s := { s with slots := _ }) (c := .complete) (k := k) trivial

/-- The head of RUN's loop goes the same way with equal counters of RUN. -/
theorem follows_runHead {k : Counters} (h : s.counters.SameRun k) :
    Follows (runHead s) (runHead (s.withCounters k)) := by
  obtain ⟨advIdx, advLeft, runTotal, runDone, runCur⟩ := k
  obtain ⟨rfl, rfl, rfl⟩ := h
  refine follows_ite (fun _ => ?_) fun _ => follows_continueWith (c := .runEnd) trivial
  dsimp only [State.withCounters, State.counters]
  cases seekActive s.slots s.slots.length s.runCur with
  | none => exact follows_fault _ _
  | some c =>
    exact follows_continueWith (s := { s with runCur := c }) (c := .runPhase 0)
      (k := ⟨advIdx, advLeft, s.runTotal, s.runDone, c⟩) ⟨rfl, rfl, rfl⟩

/-- So it does after the cursor has moved on. -/
theorem follows_runHead_advanceCursor {k : Counters} (h : s.counters.SameRun k) :
    Follows (runHead (advanceCursor s)) (runHead (advanceCursor (s.withCounters k))) := by
  obtain ⟨htotal, hdone, hcur⟩ := h
  exact follows_runHead (s := advanceCursor s) (k := { k with runCur := (k.runCur + 1) % s.slots.length })
    ⟨htotal, hdone, congrArg (fun n => (n + 1) % s.slots.length) hcur⟩

/-- RUN's decode step writes its counters before any step reads them. -/
theorem follows_execRun (k : Counters) : Follows (execRun s) (execRun (s.withCounters k)) := by
  simp only [execRun, withCounters_slots, firstBadSlot_withCounters]
  split
  · exact follows_raise _ _ _ k
  · exact follows_runHead (s := startRun s)
      (k := { k with runTotal := totalRemaining s.slots, runDone := 0, runCur := 0 }) ⟨rfl, rfl, rfl⟩

theorem follows_decodeStep (k : Counters) : Follows (decodeStep s) (decodeStep (s.withCounters k)) := by
  simp only [decodeStep, withCounters_cmdl]
  split
  next i hd =>
    obtain rfl | rfl | rfl | rfl | rfl | rfl | rfl | ⟨r, rfl⟩ | ⟨r, rfl⟩ := decodeCommand_cases hd
    · exact follows_next (k := k) trivial
    · exact follows_execAdvance _ _ _ k
    · exact follows_execDeenergize _ k
    · exact follows_execLoad _ _ _ k
    · exact follows_execRun k
    · exact follows_next (s := continueWith .complete (clearList s)) (k := k) trivial
    · exact follows_next (s := continueWith .complete (clearErrors s)) (k := k) trivial
    · exact follows_raise _ _ _ k
    · exact follows_raise _ _ _ k
  · exact follows_raise _ _ _ k

/-! ## The later steps of a command -/

theorem follows_advancePhaseStep (j : Fin 4) {k : Counters} (h : s.counters.SameAdvance k) :
    Follows (advancePhaseStep j s) (advancePhaseStep j (s.withCounters k)) := by
  have hidx : (s.withCounters k).advIdx = s.advIdx := h.1
  unfold advancePhaseStep
  rw [hidx]
  dsimp only [pattern_withCounters, cmdMotor_withCounters]
  cases s.pattern s.cmdMotor s.advIdx with
  | none => exact follows_fault _ _
  | some p =>
    refine follows_writePin fun p b => follows_continueWith ?_
    rw [counters_acceptedWrite]
    split <;> exact h

theorem follows_advanceDwellStep {k : Counters} (h : s.counters.SameAdvance k) :
    Follows (advanceDwellStep s) (advanceDwellStep (s.withCounters k)) := by
  obtain ⟨advIdx, advLeft, runTotal, runDone, runCur⟩ := k
  obtain ⟨rfl, rfl⟩ := h
  exact follows_next
    (k := ⟨nextIndex s.advIdx s.cmdDir (s.tableLen s.cmdMotor), s.advLeft - 1, runTotal, runDone, runCur⟩)
    (agreeAt_advanceHead _ ⟨rfl, rfl⟩)

theorem follows_deenergizeStep (j : Fin 4) (k : Counters) :
    Follows (deenergizeStep j s) (deenergizeStep j (s.withCounters k)) := by
  refine follows_writePin (w := { motor := s.cmdMotor, pat := 0#4, deen := true, slot := none })
    fun p b => follows_continueWith ?_
  split <;> trivial

theorem follows_runPhaseStep (j : Fin 4) {k : Counters} (h : s.counters.SameRun k) :
    Follows (runPhaseStep j s) (runPhaseStep j (s.withCounters k)) := by
  have hcur : (s.withCounters k).runCur = s.runCur := h.2.2
  unfold runPhaseStep
  rw [hcur]
  dsimp only [withCounters_slots, pattern_withCounters]
  cases s.slots[s.runCur]? with
  | none => exact follows_fault _ _
  | some sl =>
    dsimp only
    cases s.pattern sl.motor sl.idx with
    | none => exact follows_fault _ _
    | some p =>
      refine follows_writePin fun p b => follows_continueWith ?_
      rw [counters_acceptedWrite]
      split <;> exact h

theorem follows_runDeenergizeStep (j : Fin 4) {k : Counters} (h : s.counters.SameRun k) :
    Follows (runDeenergizeStep j s) (runDeenergizeStep j (s.withCounters k)) := by
  have hcur : (s.withCounters k).runCur = s.runCur := h.2.2
  unfold runDeenergizeStep
  rw [hcur]
  dsimp only [withCounters_slots]
  cases s.slots[s.runCur]? with
  | none => exact follows_fault _ _
  | some sl =>
    refine follows_writePin fun p b => follows_ite (fun _ => ?_) fun _ => follows_continueWith ?_
    · exact follows_runHead_advanceCursor (by rwa [counters_acceptedWrite])
    · rwa [counters_acceptedWrite]

theorem follows_runDwellStep {k : Counters} (h : s.counters.SameRun k) :
    Follows (runDwellStep s) (runDwellStep (s.withCounters k)) := by
  obtain ⟨advIdx, advLeft, runTotal, runDone, runCur⟩ := k
  obtain ⟨rfl, rfl, rfl⟩ := h
  show Follows _ (runDwellStep (s.withCounters ⟨advIdx, advLeft, s.runTotal, s.runDone, s.runCur⟩))
  cases hsl : s.slots[s.runCur]? with
  | none =>
    rw [runDwellStep, hsl]
    exact follows_fault _ _
  | some sl =>
    have hrun : (afterDwell sl s).counters.SameRun ⟨advIdx, advLeft, s.runTotal, s.runDone + 1, s.runCur⟩ :=
      ⟨rfl, rfl, rfl⟩
    rw [runDwellStep_eq hsl,
      runDwellStep_eq (s := s.withCounters ⟨advIdx, advLeft, s.runTotal, s.runDone, s.runCur⟩) hsl]
    exact follows_ite (fun _ => follows_continueWith (c := .runDeenergize 0) hrun) fun _ =>
      follows_runHead_advanceCursor (s := afterDwell sl s) hrun

theorem follows_sequencerStep {k : Counters} (h : s.Agrees k) :
    Follows (sequencerStep s) (sequencerStep (s.withCounters k)) := by
  unfold sequencerStep
  rw [cont_withCounters]
  cases hc : s.cont with
  | none => exact follows_next h
  | some c =>
    rw [State.Agrees, hc] at h
    cases c with
    | decode => exact follows_decodeStep k
    | advPhase j => exact follows_advancePhaseStep j h
    | advDwell => exact follows_advanceDwellStep h
    | deenergize j => exact follows_deenergizeStep j k
    | runPhase j => exact follows_runPhaseStep j h
    | runDwell => exact follows_runDwellStep h
    | runDeenergize j => exact follows_runDeenergizeStep j h
    | runEnd => exact follows_next (s := complete (clearList s)) (k := k) trivial
    | complete => exact follows_next (s := complete s) (k := k) trivial

/-! ## The host's steps -/

theorem agrees_submit (w : Word) {k : Counters} (h : s.Agrees k) : (submit w s).Agrees k := by
  cases hb : s.busy with
  | false => rw [submit_idle s w hb]; trivial
  | true => rw [submit_busy s w hb]; exact agrees_congr (recordError_cont ..) (counters_recordError ..) h

theorem agrees_writeChannel (m : MotorId) (f : Channel → Channel) {k : Counters} (h : s.Agrees k) :
    (writeChannel m f s).Agrees k := by
  obtain hm | hm := Nat.lt_or_ge m.toNat s.cfg.nm
  · cases hb : s.busy with
    | false => rw [writeChannel_idle s m f hm hb]; exact h
    | true =>
      rw [writeChannel_busy s m f hm hb]
      exact agrees_congr (recordError_cont ..) (counters_recordError ..) h
  · rw [writeChannel_absent s m f hm]
    exact h

theorem follows_writeChannel (m : MotorId) (f : Channel → Channel) {k : Counters} (h : s.Agrees k) :
    Follows (.next (writeChannel m f s)) (.next (writeChannel m f (s.withCounters k))) := by
  rw [writeChannel_withCounters]
  exact follows_next (agrees_writeChannel m f h)

theorem follows_admittedWrite (off : Nat) (v : Word) {k : Counters} (h : s.Agrees k) :
    Follows (admittedWrite off v s) (admittedWrite off v (s.withCounters k)) := by
  unfold admittedWrite
  refine follows_ite (fun _ => ?_) fun _ => ?_
  · rw [submit_withCounters]
    exact follows_next (agrees_submit v h)
  · cases hi : decodeChannelWrite off v with
    | none => exact follows_next h
    | some i => obtain ⟨m, rfl | rfl | rfl⟩ := decodeChannelWrite_cases hi <;> exact follows_writeChannel m _ h

theorem follows_hostRead (width off : Nat) {k : Counters} (h : s.Agrees k) :
    Follows (.next (hostRead width off s)) (.next (hostRead width off (s.withCounters k))) := by
  rw [hostRead_withCounters]
  exact follows_next (agrees_congr (hostRead_cont ..) (counters_hostRead ..) h)

theorem follows_hostStep (op : HostOp) {k : Counters} (h : s.Agrees k) :
    Follows (hostStep op s) (hostStep op (s.withCounters k)) := by
  cases op with
  | regRead width off => exact follows_hostRead width off h
  | regWrite width off v =>
    refine follows_ite (fun _ => ?_) fun _ => ?_
    · exact follows_admittedWrite (s := answer .ok s) off v h
    · exact follows_next (s := answer .busError s) h
  | setOutEn p b => exact follows_next (s := s.setOutEnabled p b) h
  | setLevel p b => exact follows_next (s := s.setPinLevel p b) h
  | reset => exact follows_next (s := resetBlock s) (k := (resetBlock s).counters) trivial

theorem follows_waitStep {k : Counters} (h : s.Agrees k) : Follows (waitStep s) (waitStep (s.withCounters k)) := by
  refine follows_ite (fun _ => ?_) fun _ => follows_hostRead 32 0x004 h
  rw [hostRead_withCounters]
  exact follows_next (s := { hostRead 32 0x004 s with agenda := _ })
    (agrees_congr (hostRead_cont s 32 0x004) (counters_hostRead s 32 0x004) h)

/-! ## Whole runs -/

theorem follows_step (h : Alike s t) : Follows (step s) (step t) := by
  obtain ⟨k, rfl, hk⟩ := h
  unfold step
  rw [agenda_withCounters]
  cases s.agenda with
  | nil => exact follows_sequencerStep hk
  | cons turn rest =>
    cases turn with
    | sequencer => exact follows_sequencerStep (s := { s with agenda := rest }) hk
    | host op => exact follows_hostStep (s := { s with agenda := rest }) op hk
    | wait => exact follows_waitStep (s := { s with agenda := rest }) hk

/-- A run of `n + 1` steps is a step and a run of `n`. -/
theorem run_succ_eq_next_iff {n : Nat} : Sys2Proof.core.run (n + 1) s = .next t ↔
    ∃ u, step s = .next u ∧ Sys2Proof.core.run n u = .next t := by
  have hstep : Sys2Proof.core.step s = step s := rfl
  simp only [Host.Core.run, hstep]
  cases step s <;> simp

theorem exists_run_alike {s' : State} {n : Nat} (h : Alike s t) (hrun : Sys2Proof.core.run n s = .next s') :
    ∃ t', Sys2Proof.core.run n t = .next t' ∧ Alike s' t' := by
  induction n generalizing s t with
  | zero =>
    cases hrun
    exact ⟨t, rfl, h⟩
  | succ n ih =>
    obtain ⟨u, hu, hrun⟩ := run_succ_eq_next_iff.mp hrun
    obtain ⟨v, hv, huv⟩ := follows_step h u hu
    obtain ⟨t', ht', hst⟩ := ih huv hrun
    exact ⟨t', run_succ_eq_next_iff.mpr ⟨v, hv, ht'⟩, hst⟩

/-- Settles O51: an idle block or one about to decode reads none of the counters, and states alike stay alike. -/
theorem countersCarryNothingOver : Obligations.CountersCarryNothingOver := by
  intro s t hst hcont n s' hrun
  obtain ⟨k, rfl⟩ := exists_withCounters_of_sameButCounters hst
  have hk : s.Agrees k := by obtain hc | hc := hcont <;> (rw [State.Agrees, hc]; trivial)
  obtain ⟨t', ht', k', rfl, -⟩ := exists_run_alike ⟨k, rfl, hk⟩ hrun
  exact ⟨_, ht', sameButCounters_withCounters s' k'⟩

end Sys2Proof.Machine
end

section
/-! PROOF. What one step can do to BUSY, the channel file and the list: one inversion lemma for the sequencer's steps, one
for the host's, one for a step of the machine; from it O41, O42 and O45. -/

namespace Sys2Proof.Machine

variable {s t u : State}

/-! ## What a raise leaves -/

theorem recordError_eq_recorded (code : ErrCode) (info : ErrInfo) (s : State) :
    recordError code info s = recorded code info.pack s := by
  cases he : s.err with
  | false => simp [recordError_first s code info he, recorded, he]
  | true => simp [recordError_later s code info he, recorded, he]

theorem raise_eq_endedByError (code : ErrCode) (info : ErrInfo) (inRun : Bool) (s : State) :
    raise code info inRun s = endedByError code info.pack (if inRun then [] else s.slots) s := by
  unfold raise
  rw [recordError_eq_recorded]
  cases inRun <;> rfl

theorem drawAnswer_eq_setDraws (s : State) : drawAnswer s = { s with draws := (drawAnswer s).draws } := by
  unfold drawAnswer
  split <;> rfl

/-! ## The sequencer's steps -/

/-- `P` holds of the next state an outcome gives, if it gives one. -/
def EveryNext (P : State → Prop) (o : Outcome) : Prop := ∀ t, o = .next t → P t

theorem everyNext_next {P : State → Prop} (h : P t) : EveryNext P (.next t) := by
  rintro u ⟨⟩
  exact h

theorem everyNext_fault {P : State → Prop} (r : Fault) : EveryNext P (.fault r) := by
  intro u hu
  cases hu

/-- A step after which the command goes on: BUSY and the channels stay, and the list's length too but in the decode steps
of LOAD and CLEAR. -/
structure GoesOn (s t : State) : Prop where
  busy : t.busy = s.busy
  chans : t.chans = s.chans
  list : t.listLen = s.listLen ∨
    (s.cont = some .decode ∧ (∃ m d cnt, decodeCommand s.cmdl = .ok (.load m d cnt)) ∧ t.listLen = s.listLen + 1) ∨
    (s.cont = some .decode ∧ decodeCommand s.cmdl = .ok .clear ∧ t.listLen = 0)

/-- Everything a sequencer step can do: go on, end the command, or raise an error in the decode step or at a pin write. The
raise belongs to RUN exactly if the command decodes as RUN (60_exceptions.md R230, log 14). -/
inductive SequencerMove (s : State) : State → Prop
  | goesOn (t : State) (h : GoesOn s t) : SequencerMove s t
  | completes (hk : s.cont = some .complete) : SequencerMove s (complete s)
  | endsRun (hk : s.cont = some .runEnd) : SequencerMove s (complete (clearList s))
  | raises (code : ErrCode) (info : ErrInfo) (inRun : Bool) (draws : Nat) (hcode : code ≠ .none)
      (hk : s.cont = some .decode ∨ (pendingWrite s).isSome = true)
      (hrun : StateInv s → (inRun = true ↔ decodeCommand s.cmdl = .ok .run)) :
      SequencerMove s (raise code info inRun { s with draws := draws })

/-- A sequencer step's outcome is one of those moves, a fault apart. -/
abbrev Moves (s : State) (o : Outcome) : Prop := EveryNext (SequencerMove s) o

theorem moves_goesOn (hb : t.busy = s.busy) (hc : t.chans = s.chans) (hl : t.listLen = s.listLen) :
    Moves s (.next t) :=
  everyNext_next (.goesOn t ⟨hb, hc, .inl hl⟩)

theorem moves_runHead (hb : u.busy = s.busy) (hc : u.chans = s.chans) (hl : u.listLen = s.listLen) :
    Moves s (runHead u) := by
  obtain ⟨n, -, -, hgo⟩ | ⟨-, -, hgo⟩ | ⟨-, hgo⟩ := runHead_cases u <;> rw [hgo]
  · exact moves_goesOn hb hc hl
  · exact everyNext_fault _
  · exact moves_goesOn hb hc hl

/-- A raise in the decode step. -/
theorem moves_raise {code : ErrCode} {info : ErrInfo} {inRun : Bool} (hk : s.cont = some .decode) (hcode : code ≠ .none)
    (hrun : inRun = true ↔ decodeCommand s.cmdl = .ok .run) : Moves s (.next (raise code info inRun s)) :=
  everyNext_next (.raises code info inRun s.draws hcode (.inl hk) fun _ => hrun)

theorem moves_writePin {w : PatternWrite} {j : Fin 4} {next : State → Outcome} (hw : pendingWrite s = some (w, j))
    (hrun : StateInv s → (w.slot.isSome = true ↔ decodeCommand s.cmdl = .ok .run))
    (hnext : ∀ p b, Moves s (next (acceptedWrite p b s))) : Moves s (writePin w j next s) := by
  obtain ⟨-, hgo⟩ | ⟨-, hgo⟩ := writePin_cases s w j next <;> rw [hgo]
  · exact hnext _ _
  · rw [drawAnswer_eq_setDraws]
    exact everyNext_next (.raises _ _ _ _ (by decide) (.inr (by simp [hw])) hrun)

theorem moves_execAdvance {m : MotorId} {d : Dir} {cnt : Int} (hk : s.cont = some .decode)
    (hd : decodeCommand s.cmdl = .ok (.advance m d cnt)) : Moves s (execAdvance m d cnt s) := by
  unfold execAdvance
  split
  · split
    · exact moves_raise hk (by decide) (by simp [hd])
    · exact moves_goesOn rfl rfl rfl
  · exact moves_raise hk (by decide) (by simp [hd])

theorem moves_execDeenergize {m : MotorId} (hk : s.cont = some .decode)
    (hd : decodeCommand s.cmdl = .ok (.deenergize m)) : Moves s (execDeenergize m s) := by
  unfold execDeenergize
  split
  · exact moves_goesOn rfl rfl rfl
  · exact moves_raise hk (by decide) (by simp [hd])

theorem moves_execLoad {m : MotorId} {d : Dir} {cnt : Int} (hk : s.cont = some .decode)
    (hd : decodeCommand s.cmdl = .ok (.load m d cnt)) : Moves s (execLoad m d cnt s) := by
  unfold execLoad
  split
  · split
    · exact moves_raise hk (by decide) (by simp [hd])
    · split
      · exact everyNext_next (.goesOn _ ⟨rfl, rfl, .inr (.inl ⟨hk, ⟨m, d, cnt, hd⟩, by simp [State.listLen]⟩)⟩)
      · exact moves_raise hk (by decide) (by simp [hd])
  · exact moves_raise hk (by decide) (by simp [hd])

theorem moves_execRun (hk : s.cont = some .decode) (hd : decodeCommand s.cmdl = .ok .run) : Moves s (execRun s) := by
  unfold execRun
  split
  · exact moves_raise hk (by decide) (by simp [hd])
  · exact moves_runHead rfl rfl (by simp [State.listLen])

theorem moves_decodeStep (hk : s.cont = some .decode) : Moves s (decodeStep s) := by
  unfold decodeStep
  split
  next i hd =>
    obtain rfl | rfl | rfl | rfl | rfl | rfl | rfl | ⟨r, rfl⟩ | ⟨r, rfl⟩ := decodeCommand_cases hd
    · exact moves_goesOn rfl rfl rfl
    · exact moves_execAdvance hk hd
    · exact moves_execDeenergize hk hd
    · exact moves_execLoad hk hd
    · exact moves_execRun hk hd
    · exact everyNext_next (.goesOn _ ⟨rfl, rfl, .inr (.inr ⟨hk, hd, rfl⟩)⟩)
    · exact moves_goesOn rfl rfl rfl
    · exact moves_raise hk (by decide) (by simp [hd])
    · exact moves_raise hk (by decide) (by simp [hd])
  next hd => exact moves_raise hk (by decide) (by simp [hd])

/-- An accepted pin write goes on with the command. -/
theorem moves_continueWith_acceptedWrite (c : Cont) (p : PinId) (b : Bool) :
    Moves s (.next (continueWith c (acceptedWrite p b s))) :=
  moves_goesOn (by simp) (by simp) (by simp [State.listLen])

theorem decodeCommand_ne_run_of_advanceOk (h : AdvanceOk s) : decodeCommand s.cmdl ≠ .ok .run := by
  obtain ⟨cnt, -, hd⟩ := h.decoded
  simp [hd]

theorem decodeCommand_ne_run_of_complete (h : StateInv s) (hk : s.cont = some .complete) :
    decodeCommand s.cmdl ≠ .ok .run := by
  simpa only [ContOk, hk] using h.cont

theorem decodeCommand_eq_run_of_runEnd (h : StateInv s) (hk : s.cont = some .runEnd) :
    decodeCommand s.cmdl = .ok .run := by
  obtain ⟨hr, -⟩ : RunOk s ∧ _ := by simpa only [ContOk, hk] using h.cont
  exact hr.decoded

theorem moves_advancePhaseStep {j : Fin 4} (hk : s.cont = some (.advPhase j)) : Moves s (advancePhaseStep j s) := by
  unfold advancePhaseStep
  split
  · exact everyNext_fault _
  next p hp =>
    refine moves_writePin (by simp [pendingWrite, hk, hp]) (fun hinv => ?_) fun _ _ =>
      moves_continueWith_acceptedWrite _ _ _
    have ha : AdvanceOk s := by simpa only [ContOk, hk] using hinv.cont
    simp [decodeCommand_ne_run_of_advanceOk ha]

theorem moves_deenergizeStep {j : Fin 4} (hk : s.cont = some (.deenergize j)) : Moves s (deenergizeStep j s) := by
  refine moves_writePin (by simp [pendingWrite, hk]) (fun hinv => ?_) fun _ _ => moves_continueWith_acceptedWrite _ _ _
  have hd : DeenergizeOk s := by simpa only [ContOk, hk] using hinv.cont
  simp [decodeCommand_ne_run_of_deenergizeOk hd]

theorem moves_runPhaseStep {j : Fin 4} (hk : s.cont = some (.runPhase j)) : Moves s (runPhaseStep j s) := by
  unfold runPhaseStep
  split
  · exact everyNext_fault _
  next sl hsl =>
    split
    · exact everyNext_fault _
    next p hp =>
      refine moves_writePin (by simp [pendingWrite, hk, hsl, hp]) (fun hinv => ?_) fun _ _ =>
        moves_continueWith_acceptedWrite _ _ _
      obtain ⟨hr, -⟩ : RunOk s ∧ _ := by simpa only [ContOk, hk] using hinv.cont
      simp [hr.decoded]

theorem moves_runDwellStep : Moves s (runDwellStep s) := by
  cases hsl : s.slots[s.runCur]? with
  | none =>
    rw [runDwellStep, hsl]
    exact everyNext_fault _
  | some sl =>
    have hlen : (afterDwell sl s).listLen = s.listLen := by simp [State.listLen, afterDwell]
    rw [runDwellStep_eq hsl]
    split
    · exact moves_goesOn rfl rfl hlen
    · exact moves_runHead rfl rfl hlen

theorem moves_runDeenergizeStep {j : Fin 4} (hk : s.cont = some (.runDeenergize j)) :
    Moves s (runDeenergizeStep j s) := by
  unfold runDeenergizeStep
  split
  · exact everyNext_fault _
  next sl hsl =>
    refine moves_writePin (by simp [pendingWrite, hk, hsl]) (fun hinv => ?_) fun p b => ?_
    · obtain ⟨hr, -⟩ : RunOk s ∧ _ := by simpa only [ContOk, hk] using hinv.cont
      simp [hr.decoded]
    · split
      · exact moves_runHead (by simp) (by simp) (by simp [State.listLen])
      · exact moves_continueWith_acceptedWrite _ _ _

theorem moves_sequencerStep : Moves s (sequencerStep s) := by
  unfold sequencerStep
  split
  next => exact moves_goesOn rfl rfl rfl
  next hk => exact moves_decodeStep hk
  next hk => exact moves_advancePhaseStep hk
  next => exact moves_goesOn rfl rfl rfl
  next hk => exact moves_deenergizeStep hk
  next hk => exact moves_runPhaseStep hk
  next => exact moves_runDwellStep
  next hk => exact moves_runDeenergizeStep hk
  next hk => exact everyNext_next (.endsRun hk)
  next hk => exact everyNext_next (.completes hk)

/-! ## The host's steps -/

/-- What every host step but reset keeps: the list; and while a command runs, BUSY and the channels. -/
structure HostKeeps (s t : State) : Prop where
  slots : t.slots = s.slots
  busy : s.busy = true → t.busy = true
  chans : s.busy = true → t.chans = s.chans

/-- A host step that touches none of them. -/
theorem hostKeeps_of_eq (hs : t.slots = s.slots) (hb : t.busy = s.busy) (hc : t.chans = s.chans) : HostKeeps s t :=
  ⟨hs, hb.trans, fun _ => hc⟩

theorem hostKeeps_submit (w : Word) : HostKeeps s (submit w s) := by
  cases hb : s.busy with
  | false => rw [submit_idle s w hb]; exact ⟨rfl, fun _ => rfl, fun _ => rfl⟩
  | true => rw [submit_busy s w hb]; exact hostKeeps_of_eq (by simp) (by simp) (by simp)

theorem hostKeeps_writeChannel (m : MotorId) (f : Channel → Channel) : HostKeeps s (writeChannel m f s) := by
  obtain hm | hm := Nat.lt_or_ge m.toNat s.cfg.nm
  · cases hb : s.busy with
    | false => rw [writeChannel_idle s m f hm hb]; exact ⟨rfl, id, by simp [hb]⟩
    | true => rw [writeChannel_busy s m f hm hb]; exact hostKeeps_of_eq (by simp) (by simp) (by simp)
  · rw [writeChannel_absent s m f hm]
    exact hostKeeps_of_eq rfl rfl rfl

theorem hostKeeps_admittedWrite (off : Nat) (v : Word) : EveryNext (HostKeeps s) (admittedWrite off v s) := by
  unfold admittedWrite
  split
  · exact everyNext_next (hostKeeps_submit v)
  · split
    next hi =>
      obtain ⟨m, rfl | rfl | rfl⟩ := decodeChannelWrite_cases hi <;> exact everyNext_next (hostKeeps_writeChannel m _)
    next => exact everyNext_next (hostKeeps_of_eq rfl rfl rfl)

theorem hostKeeps_hostRead (width off : Nat) : HostKeeps s (hostRead width off s) :=
  hostKeeps_of_eq (by simp) (by simp) (by simp)

theorem hostKeeps_hostStep {op : HostOp} (hop : op ≠ .reset) : EveryNext (HostKeeps s) (hostStep op s) := by
  cases op with
  | regRead width off => exact everyNext_next (hostKeeps_hostRead width off)
  | regWrite width off v =>
    unfold hostStep hostWrite
    dsimp only
    split
    · intro t ht
      obtain ⟨hs, hb, hc⟩ := hostKeeps_admittedWrite off v t ht
      exact ⟨hs, hb, hc⟩
    · exact everyNext_next (hostKeeps_of_eq rfl rfl rfl)
  | setOutEn p b => exact everyNext_next (hostKeeps_of_eq rfl rfl rfl)
  | setLevel p b => exact everyNext_next (hostKeeps_of_eq rfl rfl rfl)
  | reset => exact absurd rfl hop

theorem hostKeeps_waitStep : EveryNext (HostKeeps s) (waitStep s) := by
  unfold waitStep
  split
  · exact everyNext_next (hostKeeps_of_eq (by simp) (by simp) (by simp))
  · exact everyNext_next (hostKeeps_hostRead 32 0x004)

/-! ## A step of the machine -/

/-- Everything a step of the machine can be: a reset, a sequencer step, or another host step. -/
theorem step_cases (h : step s = .next t) :
    (∃ rest, s.agenda = .host .reset :: rest ∧ t = resetBlock { s with agenda := rest }) ∨
    (SequencerTurn s ∧ ∃ rest, SequencerMove { s with agenda := rest } t) ∨
    (¬ SequencerTurn s ∧ HostKeeps s t) := by
  unfold step at h
  split at h
  next ha => exact .inr (.inl ⟨.inl ha, s.agenda, moves_sequencerStep t h⟩)
  next rest ha => exact .inr (.inl ⟨.inr (by simp [ha]), rest, moves_sequencerStep t h⟩)
  next op rest ha =>
    by_cases hop : op = .reset
    · subst hop
      cases h
      exact .inl ⟨rest, ha, rfl⟩
    · obtain ⟨hs, hb, hc⟩ := hostKeeps_hostStep hop t h
      exact .inr (.inr ⟨by simp [SequencerTurn, ha], hs, hb, hc⟩)
  next rest ha =>
    obtain ⟨hs, hb, hc⟩ := hostKeeps_waitStep t h
    exact .inr (.inr ⟨by simp [SequencerTurn, ha], hs, hb, hc⟩)

/-- Settles O42: a sequencer step writes no channel, and a host step writes one only of an idle block. -/
theorem channelsConstantWhileBusy : Obligations.ChannelsConstantWhileBusy := by
  intro s t hstep hreset
  obtain ⟨rest, ha, -⟩ | ⟨-, rest, hmove⟩ | ⟨hturn, hkeep⟩ := step_cases hstep
  · exact absurd (by simp [ha]) hreset
  · have hchans : t.chans = s.chans := by
      cases hmove with
      | goesOn _ h => exact h.chans
      | completes => rfl
      | endsRun => rfl
      | raises => simp
    exact ⟨fun _ => hchans, fun _ => hchans⟩
  · exact ⟨hkeep.chans, fun h => absurd h hturn⟩

/-- Settles O41: of a sequencer's moves only the ends of a command and the raises clear BUSY, of the host's only reset. -/
theorem busyFallsOnlyAtTheEnd : Obligations.BusyFallsOnlyAtTheEnd := by
  intro s t hstep hbusy hidle
  obtain ⟨rest, ha, rfl⟩ | ⟨hturn, rest, hmove⟩ | ⟨-, hkeep⟩ := step_cases hstep
  · exact ⟨rfl, .inl (by simp [ha])⟩
  · cases hmove with
    | goesOn _ h => exact absurd (hidle.symm.trans (h.busy.trans hbusy)) (by decide)
    | completes hk => exact ⟨rfl, .inr (.inl ⟨hturn, .inl hk⟩)⟩
    | endsRun hk => exact ⟨rfl, .inr (.inl ⟨hturn, .inr hk⟩)⟩
    | raises code info inRun draws hcode hk =>
      refine ⟨rfl, .inr (.inr ⟨hturn, hk, ?_, code, info.pack, hcode, ?_⟩)⟩
      · cases inRun <;> simp
      · rw [raise_eq_endedByError]
        rfl
  · exact absurd (hidle.symm.trans (hkeep.busy hbusy)) (by decide)

/-- Settles O45: each move's effect on the list, with the invariant saying which command runs. -/
theorem listLengthChanges : Obligations.ListLengthChanges := by
  intro s t hinv hstep
  refine ⟨(sound_step hinv t hstep).listFits, ?_⟩
  obtain ⟨rest, ha, rfl⟩ | ⟨hturn, rest, hmove⟩ | ⟨-, hkeep⟩ := step_cases hstep
  · exact ⟨.inr (.inr ⟨rfl, .inl (by simp [ha])⟩), fun _ _ _ => rfl⟩
  · cases hmove with
    | goesOn _ h =>
      refine ⟨?_, fun hb _ hf => absurd (hf.symm.trans (h.busy.trans hb)) (by decide)⟩
      obtain hl | ⟨hk, hd, hl⟩ | ⟨hk, hd, hl⟩ := h.list
      · exact .inl hl
      · exact .inr (.inl ⟨hl, hturn, hk, hd⟩)
      · exact .inr (.inr ⟨hl, .inr (.inl ⟨hturn, hk, hd⟩)⟩)
    | completes hk =>
      exact ⟨.inl rfl, fun _ hd _ => absurd hd (decodeCommand_ne_run_of_complete hinv hk)⟩
    | endsRun hk =>
      have hd := decodeCommand_eq_run_of_runEnd hinv hk
      exact ⟨.inr (.inr ⟨rfl, .inr (.inr ⟨hturn, hd, rfl⟩)⟩), fun _ _ _ => rfl⟩
    | raises code info inRun draws hcode hk hrun =>
      have hrun := hrun (inv_environment hinv)
      cases inRun with
      | false => exact ⟨.inl (by simp [State.listLen]), fun _ hd _ => absurd (hrun.mpr hd) (by decide)⟩
      | true =>
        have hl : (raise code info true { s with agenda := rest, draws := draws }).listLen = 0 := rfl
        exact ⟨.inr (.inr ⟨hl, .inr (.inr ⟨hturn, hrun.mp rfl, rfl⟩)⟩), fun _ _ _ => hl⟩
  · have hl : t.listLen = s.listLen := congrArg List.length hkeep.slots
    exact ⟨.inl hl, fun hb _ hf => absurd (hf.symm.trans (hkeep.busy hb)) (by decide)⟩

end Sys2Proof.Machine
end

section
/-! PROOF. What the host reads: a read changes nothing (O34), and the layout of the read-only registers (O36). -/

namespace Sys2Proof.Machine

variable {s : State}

/-- Settles O34: a read appends its answer, and the register's value does not depend on the agenda. -/
theorem readHasNoSideEffect : Obligations.ReadHasNoSideEffect := by
  intro s off rest halign hoff hagenda
  have hadm : admitted 32 off = true := (admitted_iff 32 off).mpr ⟨rfl, halign, hoff⟩
  simp only [step, hagenda, hostStep, hostRead_eq, hadm, if_true]
  rfl

/-! ## What stands at the read-only registers (20_memory.md R62) -/

theorem readReg_status (s : State) : readReg s 0x004 = s.statusWord := rfl

theorem readReg_errinfo (s : State) : readReg s 0x008 = s.errinfo := rfl

theorem readReg_params (s : State) : readReg s 0x00C = s.paramsWord := rfl

theorem regAt_slot (c : Config) {n : Nat} (hn : n < 16) :
    regAt c (0x200 + 4 * n) = if n < c.nslot then .slot n else .reserved := by
  have hidx : (0x200 + 4 * n - 0x200) / 4 = n := by omega
  unfold regAt
  rw [if_neg (by omega), if_neg (by omega), if_neg (by omega), if_neg (by omega), if_neg (by omega), hidx]
  exact if_congr ⟨fun h => h.2.2, fun h => ⟨by omega, by omega, h⟩⟩ rfl rfl

theorem slotWord_loaded {n : Nat} {sl : Slot} (h : s.slots[n]? = some sl) : s.slotWord n = sl.word := by
  simp only [State.slotWord, h]

theorem slotWord_unloaded {n : Nat} (h : s.slots.length ≤ n) : s.slotWord n = 0#32 := by
  simp only [State.slotWord, List.getElem?_eq_none h]

/-- SLOT(n) at and above NSLOT is reserved and reads 0, as an unloaded slot does. -/
theorem readReg_slot (h : StateInv s) {n : Nat} (hn : n < 16) : readReg s (0x200 + 4 * n) = s.slotWord n := by
  by_cases hs : n < s.cfg.nslot
  · simp [readReg, regAt_slot _ hn, hs]
  · simp [readReg, regAt_slot _ hn, hs, slotWord_unloaded (h.listFits.trans (Nat.not_lt.mp hs))]

/-! ## The packed words as numbers, and their fields -/

theorem field_eq_of_toNat {w : Word} {lo len : Nat} {x : BitVec len} (h : w.toNat / 2 ^ lo % 2 ^ len = x.toNat) :
    w.extractLsb' lo len = x := by
  apply BitVec.eq_of_toNat_eq
  rw [field_toNat, h]

theorem getLsbD_eq_of_toNat {w : Word} {i : Nat} {b : Bool} (h : w.toNat / 2 ^ i % 2 = b.toNat) : w.getLsbD i = b := by
  rw [getLsbD_eq_field, h]
  cases b <;> rfl

theorem statusWord_toNat (s : State) : s.statusWord.toNat = s.listLen % 32 * 2 ^ 16 +
    (errCodeBits s.ecode).toNat * 2 ^ 8 + s.errovf.toNat * 2 ^ 2 + s.err.toNat * 2 + s.busy.toNat := by
  simp only [State.statusWord, packed_toNat, toNat_cat, bit_toNat, BitVec.toNat_ofNat]
  omega

theorem paramsWord_toNat (s : State) :
    s.paramsWord.toNat = 2 ^ 16 + s.cfg.nslot % 32 * 2 ^ 8 + s.cfg.nm % 32 := by
  simp only [State.paramsWord, packed_toNat, toNat_cat, BitVec.toNat_ofNat]
  omega

theorem pack_toNat (e : ErrInfo) : e.pack.toNat = e.slot.toNat * 2 ^ 28 + e.pat.toNat * 2 ^ 24 +
    e.pinid.toNat * 2 ^ 16 + e.regw.toNat * 2 ^ 11 + e.deen.toNat * 2 ^ 10 + e.pinidx.toNat * 2 ^ 8 +
    e.motor.toNat * 2 ^ 4 + e.opc.toNat := by
  simp only [ErrInfo.pack, packed_toNat, toNat_cat, bit_toNat, BitVec.toNat_ofNat]
  omega

theorem slot_word_toNat (sl : Slot) : sl.word.toNat = 2 ^ 31 + sl.motor.toNat * 2 ^ 20 + (dirBit sl.dir).toNat * 2 ^ 19 +
    sl.idx % 8 * 2 ^ 16 + sl.remaining % 2 ^ 16 := by
  simp only [Slot.word, packed_toNat, toNat_cat, BitVec.toNat_ofNat]
  omega

/-- STATUS, field by field (10_state.md R24). -/
theorem statusWord_fields (h : StateInv s) :
    s.statusWord.getLsbD 0 = s.busy ∧ s.statusWord.getLsbD 1 = s.err ∧ s.statusWord.getLsbD 2 = s.errovf ∧
      s.statusWord.extractLsb' 3 5 = 0#5 ∧ s.statusWord.extractLsb' 8 4 = errCodeBits s.ecode ∧
      s.statusWord.extractLsb' 12 4 = 0#4 ∧ (s.statusWord.extractLsb' 16 5).toNat = s.slots.length ∧
      s.statusWord.extractLsb' 21 11 = 0#11 := by
  have hlen := listLen_le_16 h
  have hb := s.busy.toNat_lt
  have he := s.err.toNat_lt
  have ho := s.errovf.toNat_lt
  refine ⟨getLsbD_eq_of_toNat ?_, getLsbD_eq_of_toNat ?_, getLsbD_eq_of_toNat ?_, field_eq_of_toNat ?_,
    field_eq_of_toNat ?_, field_eq_of_toNat ?_, (field_toNat ..).trans ?_, field_eq_of_toNat ?_⟩ <;>
    simp only [statusWord_toNat, State.listLen, BitVec.toNat_ofNat] <;> omega

/-- What an error record shows, field by field (10_state.md R28). -/
theorem pack_fields (e : ErrInfo) :
    e.pack.extractLsb' 0 4 = e.opc ∧ e.pack.extractLsb' 4 4 = e.motor ∧ e.pack.extractLsb' 8 2 = e.pinidx ∧
      e.pack.getLsbD 10 = e.deen ∧ e.pack.getLsbD 11 = e.regw ∧ e.pack.extractLsb' 12 4 = 0#4 ∧
      e.pack.extractLsb' 16 8 = e.pinid ∧ e.pack.extractLsb' 24 4 = e.pat ∧ e.pack.extractLsb' 28 4 = e.slot := by
  have hd := e.deen.toNat_lt
  have hr := e.regw.toNat_lt
  refine ⟨field_eq_of_toNat ?_, field_eq_of_toNat ?_, field_eq_of_toNat ?_, getLsbD_eq_of_toNat ?_,
    getLsbD_eq_of_toNat ?_, pack_reserved e, field_eq_of_toNat ?_, field_eq_of_toNat ?_, field_eq_of_toNat ?_⟩ <;>
    rw [pack_toNat] <;> omega

/-- PARAMS, field by field (10_state.md R29). -/
theorem paramsWord_fields (h : StateInv s) :
    (s.paramsWord.extractLsb' 0 5).toNat = s.cfg.nm ∧ s.paramsWord.extractLsb' 5 3 = 0#3 ∧
      (s.paramsWord.extractLsb' 8 5).toNat = s.cfg.nslot ∧ s.paramsWord.extractLsb' 13 3 = 0#3 ∧
      s.paramsWord.extractLsb' 16 8 = 0x01#8 ∧ s.paramsWord.extractLsb' 24 8 = 0#8 := by
  obtain ⟨-, hnm, -, hnslot, -⟩ := h.cfg
  refine ⟨(field_toNat ..).trans ?_, field_eq_of_toNat ?_, (field_toNat ..).trans ?_, field_eq_of_toNat ?_,
    field_eq_of_toNat ?_, field_eq_of_toNat ?_⟩ <;> simp only [paramsWord_toNat, BitVec.toNat_ofNat] <;> omega

/-- A loaded slot, field by field (10_state.md R32). -/
theorem slot_word_fields {sl : Slot} (hr : sl.remaining ≤ 32767) (hi : sl.idx < 8) :
    (sl.word.extractLsb' 0 16).toNat = sl.remaining ∧ (sl.word.extractLsb' 16 3).toNat = sl.idx ∧
      sl.word.extractLsb' 19 1 = dirBit sl.dir ∧ sl.word.extractLsb' 20 4 = sl.motor ∧
      sl.word.extractLsb' 24 7 = 0#7 ∧ sl.word.getLsbD 31 = true := by
  refine ⟨(field_toNat ..).trans ?_, (field_toNat ..).trans ?_, field_eq_of_toNat ?_, field_eq_of_toNat ?_,
    field_eq_of_toNat ?_, getLsbD_eq_of_toNat ?_⟩ <;>
    simp only [slot_word_toNat, BitVec.toNat_ofNat, Bool.toNat_true] <;> omega

/-- Settles O36: each register's word, then its fields. -/
theorem readOnlyRegisterLayout : Obligations.ReadOnlyRegisterLayout := by
  intro s h
  simp only [readReg_status, readReg_errinfo, readReg_params]
  refine ⟨statusWord_fields h, ⟨trivial, h.errinfoReserved, fun code e he => ?_⟩, paramsWord_fields h, fun n sl hsl => ?_,
    fun n hlen hn => ?_⟩
  · rw [recordError_first s code e he]
    exact pack_fields e
  · have hn : n < 16 := (List.getElem?_eq_some_iff.mp hsl).1.trans_le (listLen_le_16 h)
    obtain ⟨hr, hi⟩ := h.slots sl (List.mem_of_getElem? hsl)
    rw [readReg_slot h hn, slotWord_loaded hsl]
    exact slot_word_fields hr hi
  · rw [readReg_slot h hn, slotWord_unloaded hlen]

end Sys2Proof.Machine
end

section
/-! PROOF. The host's accesses to the register window: refused accesses (O33), offsets that read 0 and ignore writes (O35),
and the byte order of the window (O37). -/

namespace Sys2Proof.Machine

variable {s : State}

/-! ## A turn of the host -/

theorem step_host {op : HostOp} {rest : List Turn} (h : s.agenda = .host op :: rest) :
    step s = hostStep op { s with agenda := rest } := by
  simp only [step, h]

/-- A refused write is answered `buserr`, as a refused read is (20_memory.md R68). -/
theorem hostWrite_refused {width off : Nat} (v : Word) (h : ¬ (width = 32 ∧ off % 4 = 0 ∧ off < 0x400)) (s : State) :
    hostWrite width off v s = .next (answer .busError s) := by
  rw [hostWrite, if_neg (mt (admitted_iff width off).mp h)]

theorem hostRead_refused {width off : Nat} (h : ¬ (width = 32 ∧ off % 4 = 0 ∧ off < 0x400)) (s : State) :
    hostRead width off s = answer .busError s := by
  rw [hostRead, if_neg (mt (admitted_iff width off).mp h)]

/-- An admitted write is answered `ok` before it takes effect. -/
theorem step_admittedWrite {off : Nat} {v : Word} {rest : List Turn} (halign : off % 4 = 0) (hoff : off < 0x400)
    (h : s.agenda = .host (.regWrite 32 off v) :: rest) :
    step s = admittedWrite off v (answer .ok { s with agenda := rest }) := by
  rw [step_host h, hostStep, hostWrite, if_pos ((admitted_iff 32 off).mpr ⟨rfl, halign, hoff⟩)]

/-- Settles O33: an access that is not admitted only appends the answer `buserr`. -/
theorem refusedAccessChangesNothing : Obligations.RefusedAccessChangesNothing := by
  intro s width off rest h
  refine ⟨fun ha => ?_, fun v ha => ?_⟩
  · rw [step_host ha, hostStep, hostRead_refused h]
    rfl
  · rw [step_host ha, hostStep, hostWrite_refused v h]
    rfl

/-! ## Reserved and read-only offsets (20_memory.md R63, R64, R65) -/

/-- The offsets above PARAMS with no register: none of an existing channel, none of an existing slot. -/
theorem regAt_reserved {c : Config} {off : Nat} (hlow : 0x010 ≤ off)
    (hchan : off / 256 = 1 → off % 16 = 0xC ∨ c.nm ≤ off / 16 % 16)
    (hslot : off / 64 = 8 → c.nslot ≤ (off - 0x200) / 4) : regAt c off = .reserved := by
  unfold regAt
  rw [if_neg (by omega), if_neg (by omega), if_neg (by omega), if_neg (by omega)]
  split
  next hpage =>
    split
    next hm =>
      have hc : off % 16 = 0xC := (hchan hpage).resolve_right (by omega)
      rw [hc]
      rfl
    next => rfl
  next =>
    rw [if_neg]
    rintro ⟨hpage, -, hs⟩
    exact absurd (hslot hpage) (by omega)

theorem readReg_of_reserved {off : Nat} (h : regAt s.cfg off = .reserved) : readReg s off = 0#32 := by
  simp only [readReg, h]

/-- What the decoder of the configuration writes accepts: the three registers of a channel's block. -/
theorem decodeChannelWrite_eq_some {off : Nat} {v : Word} {i : Instr} (h : decodeChannelWrite off v = some i) :
    off / 256 = 1 ∧
      ((off % 16 = 0x0 ∧ i = .wrChCtrl (channelOfOffset off) v) ∨ (off % 16 = 0x4 ∧ i = .wrChPins (channelOfOffset off) v) ∨
        (off % 16 = 0x8 ∧ i = .wrChDelay (channelOfOffset off) v)) := by
  unfold decodeChannelWrite at h
  split at h
  next hpage =>
    refine ⟨hpage, ?_⟩
    split at h <;> cases h <;> simp [*]
  next => cases h

theorem channelOfOffset_toNat (off : Nat) : (channelOfOffset off).toNat = off / 16 % 16 := by
  simp only [channelOfOffset, BitVec.toNat_ofNat]
  omega

/-- A write of an absent channel changes nothing (20_memory.md R63). -/
theorem exec_channelWrite_absent {m : MotorId} {v : Word} {i : Instr}
    (hi : i = .wrChCtrl m v ∨ i = .wrChPins m v ∨ i = .wrChDelay m v) (hm : s.cfg.nm ≤ m.toNat) : exec i s = .next s := by
  obtain rfl | rfl | rfl := hi <;> exact congrArg _ (writeChannel_absent s m _ hm)

/-- An admitted write is ignored unless its offset is CMD or a register of an existing channel. -/
theorem admittedWrite_ignored {off : Nat} (v : Word) (hcmd : off ≠ 0x000)
    (hchan : off / 256 = 1 → off % 16 = 0xC ∨ s.cfg.nm ≤ off / 16 % 16) : admittedWrite off v s = .next s := by
  rw [admittedWrite, if_neg hcmd]
  split
  next i hi =>
    obtain ⟨hpage, hreg⟩ := decodeChannelWrite_eq_some hi
    refine exec_channelWrite_absent (hreg.imp And.right (Or.imp And.right And.right)) ?_
    rw [channelOfOffset_toNat]
    exact (hchan hpage).resolve_left (by omega)
  next => rfl

/-- Settles O35: such an offset has no register or none that a write reaches. -/
theorem reservedAndReadOnlyOffsets : Obligations.ReservedAndReadOnlyOffsets := by
  intro s off halign hoff
  refine ⟨fun h => ?_, fun h v rest ha => ?_⟩
  · by_cases hcmd : off = 0x000
    · subst hcmd
      rfl
    · exact readReg_of_reserved (regAt_reserved (by omega) (by omega) (by omega))
  · have hchan : off / 256 = 1 → off % 16 = 0xC ∨ s.cfg.nm ≤ off / 16 % 16 := by omega
    rw [step_admittedWrite halign hoff ha]
    exact admittedWrite_ignored v (by omega) hchan

/-! ## The byte order of the window (20_memory.md R67) -/

/-- The configuration write that the offset of a channel's register stands for (30_encoding.md R103). -/
theorem decodeChannelWrite_channel (m : MotorId) (v : Word) :
    decodeChannelWrite (0x104 + 0x10 * m.toNat) v = some (.wrChPins m v) ∧
      decodeChannelWrite (0x108 + 0x10 * m.toNat) v = some (.wrChDelay m v) := by
  have := m.isLt
  have hpins : channelOfOffset (0x104 + 0x10 * m.toNat) = m := channelOfOffset_channelOffset m 4 (by decide)
  have hdelay : channelOfOffset (0x108 + 0x10 * m.toNat) = m := channelOfOffset_channelOffset m 8 (by decide)
  unfold decodeChannelWrite
  rw [if_pos (by omega), if_pos (by omega), hpins, hdelay, show (0x104 + 0x10 * m.toNat) % 16 = 0x4 by omega,
    show (0x108 + 0x10 * m.toNat) % 16 = 0x8 by omega]
  exact ⟨rfl, rfl⟩

/-- A write to a channel's register is the configuration write it decodes to, answered `ok` (30_encoding.md R103). -/
theorem step_channelWrite {off : Nat} {v : Word} {i : Instr} {rest : List Turn} (hi : decodeChannelWrite off v = some i)
    (ha : s.agenda = .host (.regWrite 32 off v) :: rest) :
    step s = exec i (answer .ok { s with agenda := rest }) := by
  obtain ⟨hpage, hreg⟩ := decodeChannelWrite_eq_some hi
  rw [step_admittedWrite (by omega) (by omega) ha, admittedWrite, if_neg (by omega), hi]

theorem exec_wrChPins_idle {m : MotorId} (v : Word) (hidle : s.busy = false) (hm : m.toNat < s.cfg.nm) :
    exec (.wrChPins m v) s = .next (s.setChan m { s.chan m with
      pin0 := v.extractLsb' 0 8, pin1 := v.extractLsb' 8 8, pin2 := v.extractLsb' 16 8, pin3 := v.extractLsb' 24 8 }) :=
  congrArg Host.Outcome.next (writeChannel_idle s m _ hm hidle)

theorem exec_wrChDelay_idle {m : MotorId} (v : Word) (hidle : s.busy = false) (hm : m.toNat < s.cfg.nm) :
    exec (.wrChDelay m v) s = .next (s.setChan m { s.chan m with delay := v }) :=
  congrArg Host.Outcome.next (writeChannel_idle s m _ hm hidle)

theorem readReg_chPins {m : MotorId} (hm : m.toNat < s.cfg.nm) :
    readReg s (0x104 + 0x10 * m.toNat) = (s.chan m).pinsWord := by
  obtain ⟨-, hpins, -⟩ := regAt_channel s.cfg m hm
  simp only [readReg, hpins]

theorem readReg_chDelay {m : MotorId} (hm : m.toNat < s.cfg.nm) :
    readReg s (0x108 + 0x10 * m.toNat) = (s.chan m).delay := by
  obtain ⟨-, -, hdelay⟩ := regAt_channel s.cfg m hm
  simp only [readReg, hdelay]

theorem pinsWord_toNat (c : Channel) : c.pinsWord.toNat =
    c.pin3.toNat * 2 ^ 24 + c.pin2.toNat * 2 ^ 16 + c.pin1.toNat * 2 ^ 8 + c.pin0.toNat := by
  simp only [Channel.pinsWord, packed_toNat, toNat_cat]
  omega

/-- Byte `j` of CH_PINS is the pin id of pin index `j` (10_state.md R26). -/
theorem pinsWord_byte (c : Channel) (j : Fin 4) : c.pinsWord.extractLsb' (8 * j.val) 8 = c.pin j := by
  have h0 := c.pin0.isLt
  have h1 := c.pin1.isLt
  have h2 := c.pin2.isLt
  apply field_eq_of_toNat
  rw [pinsWord_toNat]
  match j with
  | 0 | 1 | 2 | 3 => norm_num [Channel.pin]; omega

/-- PARAMS holds VERSION in its byte 2 (10_state.md R29). -/
theorem paramsWord_version (s : State) : s.paramsWord.extractLsb' 16 8 = 0x01#8 := by
  apply field_eq_of_toNat
  rw [paramsWord_toNat, BitVec.toNat_ofNat]
  omega

/-- Settles O37: a byte of the window is a byte of the register, and the register holds what the write put there. -/
theorem windowIsLittleEndian : Obligations.WindowIsLittleEndian := by
  refine ⟨fun s m v rest hidle hm => ?_, fun s => ?_, fun s width off rest hw => ?_⟩
  · obtain ⟨hpins, hdelay⟩ := decodeChannelWrite_channel m v
    refine ⟨fun ha => ?_, fun ha => ?_⟩
    · refine ⟨_, (step_channelWrite hpins ha).trans (exec_wrChPins_idle v hidle hm), fun j => ?_⟩
      rw [regByte_word _ _ _ (by omega) j.isLt, readReg_chPins (by exact hm), pinsWord_byte, chan_setChan_self]
      refine ⟨?_, rfl⟩
      match j with
      | 0 | 1 | 2 | 3 => rfl
    · refine ⟨_, (step_channelWrite hdelay ha).trans (exec_wrChDelay_idle v hidle hm), ?_, fun j => ?_⟩
      · rw [chan_setChan_self]
      · rw [regByte_word _ _ _ (by omega) j.isLt, readReg_chDelay (by exact hm), chan_setChan_self]
  · exact (regByte_word s 0x00C 2 rfl (by decide)).trans (paramsWord_version s)
  · exact refusedAccessChangesNothing s width off rest fun h => hw h.1

end Sys2Proof.Machine
end

section
/-! PROOF. What one step can do to the trace and to the host's GPIO port (O44): one lemma per operation and step, each
saying which single event the step plays, if any. -/

namespace Sys2Proof.Machine

variable {s t u : State}

/-! ## The trace and the port, seen together -/

/-- The events so far and the host's GPIO port. -/
structure Port where
  trace : List Event
  level : Vector Bool 256
  outEn : Vector Bool 256

/-- What of the state an event or a host change of a pin can touch. -/
def State.port (s : State) : Port := ⟨s.trace, s.level, s.outEn⟩

/-- One event happens: the trace records it, and the levels follow it (20_memory.md R72). -/
def Port.play (P : Port) (e : Event) : Port := { P with trace := P.trace ++ [e], level := playEvent P.level e }

@[simp] theorem port_recordError (code : ErrCode) (info : ErrInfo) (s : State) :
    (recordError code info s).port = s.port := by
  simp [State.port]

@[simp] theorem port_raise (code : ErrCode) (info : ErrInfo) (inRun : Bool) (s : State) :
    (raise code info inRun s).port = s.port := by
  simp [State.port]

@[simp] theorem port_drawAnswer (s : State) : (drawAnswer s).port = s.port := by
  simp [State.port]

@[simp] theorem port_hostRead (width off : Nat) (s : State) : (hostRead width off s).port = s.port := by
  simp [State.port]

@[simp] theorem port_continueWith (k : Cont) (s : State) : (continueWith k s).port = s.port := rfl

@[simp] theorem port_advanceCursor (s : State) : (advanceCursor s).port = s.port := rfl

@[simp] theorem port_acceptedWrite (p : PinId) (b : Bool) (s : State) :
    (acceptedWrite p b s).port = s.port.play (.pinWrite p b) := by
  simp [State.port, Port.play]

@[simp] theorem port_submit (w : Word) (s : State) : (submit w s).port = s.port := by
  unfold submit
  split
  · simp
  · rfl

@[simp] theorem port_writeChannel (m : MotorId) (f : Channel → Channel) (s : State) :
    (writeChannel m f s).port = s.port := by
  unfold writeChannel
  split
  · split
    · simp
    · rfl
  · rfl

/-! ## Steps without an event -/

/-- The step makes no event and touches no pin. -/
abbrev Quiet (s : State) (o : Outcome) : Prop := EveryNext (fun t => t.port = s.port) o

theorem quiet_raise {code : ErrCode} {info : ErrInfo} {inRun : Bool} : Quiet s (.next (raise code info inRun s)) :=
  everyNext_next (port_raise ..)

theorem quiet_runHead (h : u.port = s.port) : Quiet s (runHead u) := by
  obtain ⟨n, -, -, hgo⟩ | ⟨-, -, hgo⟩ | ⟨-, hgo⟩ := runHead_cases u <;> rw [hgo]
  · exact everyNext_next h
  · exact everyNext_fault _
  · exact everyNext_next h

theorem quiet_execAdvance (m : MotorId) (d : Dir) (cnt : Int) : Quiet s (execAdvance m d cnt s) := by
  unfold execAdvance
  split
  · split
    · exact quiet_raise
    · exact everyNext_next rfl
  · exact quiet_raise

theorem quiet_execDeenergize (m : MotorId) : Quiet s (execDeenergize m s) := by
  unfold execDeenergize
  split
  · exact everyNext_next rfl
  · exact quiet_raise

theorem quiet_execLoad (m : MotorId) (d : Dir) (cnt : Int) : Quiet s (execLoad m d cnt s) := by
  unfold execLoad
  split
  · split
    · exact quiet_raise
    · split
      · exact everyNext_next rfl
      · exact quiet_raise
  · exact quiet_raise

theorem quiet_execRun : Quiet s (execRun s) := by
  unfold execRun
  split
  · exact quiet_raise
  · exact quiet_runHead rfl

/-- No decode step and no configuration write makes an event. -/
theorem quiet_exec (i : Instr) : Quiet s (exec i s) := by
  cases i with
  | nop => exact everyNext_next rfl
  | advance m d cnt => exact quiet_execAdvance m d cnt
  | deenergize m => exact quiet_execDeenergize m
  | load m d cnt => exact quiet_execLoad m d cnt
  | run => exact quiet_execRun
  | clear => exact everyNext_next rfl
  | clrerr => exact everyNext_next rfl
  | illegalOpc7 r => exact quiet_raise
  | illegalOpc8F r => exact quiet_raise
  | wrChCtrl m v => exact everyNext_next (port_writeChannel ..)
  | wrChPins m v => exact everyNext_next (port_writeChannel ..)
  | wrChDelay m v => exact everyNext_next (port_writeChannel ..)

theorem quiet_decodeStep : Quiet s (decodeStep s) := by
  unfold decodeStep
  split
  · exact quiet_exec _
  · exact quiet_raise

theorem quiet_hostWrite (width off : Nat) (v : Word) : Quiet s (hostWrite width off v s) := by
  unfold hostWrite admittedWrite
  split
  · split
    · exact everyNext_next (port_submit ..)
    · split
      · exact quiet_exec (s := answer .ok s) _
      · exact everyNext_next rfl
  · exact everyNext_next rfl

theorem quiet_waitStep : Quiet s (waitStep s) := by
  unfold waitStep
  split <;> exact everyNext_next (port_hostRead 32 0x004 s)

/-! ## The sequencer's steps: at most one event -/

/-- From `s` to `t` at most one event happens, and the pins follow it. -/
def PlaysAtMostOne (s t : State) : Prop := t.port = s.port ∨ ∃ e, t.port = s.port.play e

/-- The step plays at most one event. -/
abbrev Plays (s : State) (o : Outcome) : Prop := EveryNext (PlaysAtMostOne s) o

theorem plays_of_quiet {o : Outcome} (h : Quiet s o) : Plays s o := fun t ht => .inl (h t ht)

/-- What goes on quietly after an event plays that event. -/
theorem plays_of_quiet_after {o : Outcome} (e : Event) (hu : u.port = s.port.play e) (h : Quiet u o) : Plays s o :=
  fun t ht => .inr ⟨e, (h t ht).trans hu⟩

/-- A rejected write is no event (log 6); an accepted one is one. -/
theorem plays_writePin {w : PatternWrite} {j : Fin 4} {next : State → Outcome} (hnext : ∀ u, Quiet u (next u)) :
    Plays s (writePin w j next s) := by
  obtain ⟨-, hgo⟩ | ⟨-, hgo⟩ := writePin_cases s w j next <;> rw [hgo]
  · exact plays_of_quiet_after _ (port_acceptedWrite ..) (hnext _)
  · exact plays_of_quiet (everyNext_next (by simp))

theorem plays_advancePhaseStep (j : Fin 4) : Plays s (advancePhaseStep j s) := by
  unfold advancePhaseStep
  split
  · exact everyNext_fault _
  · exact plays_writePin fun _ => everyNext_next rfl

theorem plays_advanceDwellStep : Plays s (advanceDwellStep s) := everyNext_next (.inr ⟨_, rfl⟩)

theorem plays_deenergizeStep (j : Fin 4) : Plays s (deenergizeStep j s) := plays_writePin fun _ => everyNext_next rfl

theorem plays_runPhaseStep (j : Fin 4) : Plays s (runPhaseStep j s) := by
  unfold runPhaseStep
  split
  · exact everyNext_fault _
  · split
    · exact everyNext_fault _
    · exact plays_writePin fun _ => everyNext_next rfl

theorem plays_runDwellStep : Plays s (runDwellStep s) := by
  cases hsl : s.slots[s.runCur]? with
  | none =>
    rw [runDwellStep, hsl]
    exact everyNext_fault _
  | some sl =>
    have hdwell : (afterDwell sl s).port = s.port.play (.dwell sl.motor (s.chan sl.motor).delay) := rfl
    rw [runDwellStep_eq hsl]
    refine plays_of_quiet_after _ hdwell ?_
    split
    · exact everyNext_next rfl
    · exact quiet_runHead rfl

theorem plays_runDeenergizeStep (j : Fin 4) : Plays s (runDeenergizeStep j s) := by
  unfold runDeenergizeStep
  split
  · exact everyNext_fault _
  · refine plays_writePin fun u => ?_
    split
    · exact quiet_runHead rfl
    · exact everyNext_next rfl

theorem plays_sequencerStep : Plays s (sequencerStep s) := by
  unfold sequencerStep
  split
  · exact plays_of_quiet (everyNext_next rfl)
  · exact plays_of_quiet quiet_decodeStep
  · exact plays_advancePhaseStep _
  · exact plays_advanceDwellStep
  · exact plays_deenergizeStep _
  · exact plays_runPhaseStep _
  · exact plays_runDwellStep
  · exact plays_runDeenergizeStep _
  · exact plays_of_quiet (everyNext_next rfl)
  · exact plays_of_quiet (everyNext_next rfl)

/-! ## A step of the machine -/

/-- Everything a step can do to the trace and the port: the sequencer plays at most one event; the host changes one
OUT_EN or one LEVEL; every other turn leaves them alone. -/
theorem step_port_cases (h : step s = .next t) :
    (SequencerTurn s ∧ PlaysAtMostOne s t) ∨
    (∃ p b, s.agenda.head? = some (.host (.setOutEn p b)) ∧ t.port = (s.setOutEnabled p b).port) ∨
    (∃ p b, s.agenda.head? = some (.host (.setLevel p b)) ∧ t.port = (s.setPinLevel p b).port) ∨
    t.port = s.port := by
  unfold step at h
  split at h
  next ha => exact .inl ⟨.inl ha, plays_sequencerStep t h⟩
  next rest ha => exact .inl ⟨.inr (by simp [ha]), plays_sequencerStep (s := { s with agenda := rest }) t h⟩
  next op rest ha =>
    cases op with
    | regRead width off => cases h; exact .inr (.inr (.inr (port_hostRead ..)))
    | regWrite width off v => exact .inr (.inr (.inr (quiet_hostWrite (s := { s with agenda := rest }) width off v t h)))
    | setOutEn p b => cases h; exact .inr (.inl ⟨p, b, by simp [ha], rfl⟩)
    | setLevel p b => cases h; exact .inr (.inr (.inl ⟨p, b, by simp [ha], rfl⟩))
    | reset => cases h; exact .inr (.inr (.inr rfl))
  next rest ha => exact .inr (.inr (.inr (quiet_waitStep (s := { s with agenda := rest }) t h)))

/-- Settles O44: the events are the one a sequencer step plays, or none. -/
theorem pinsFollowTheTrace : Obligations.PinsFollowTheTrace := by
  intro s t hstep
  obtain ⟨hturn, hport | ⟨e, hport⟩⟩ | ⟨p, b, ha, hport⟩ | ⟨p, b, ha, hport⟩ | hport := step_port_cases hstep <;>
    obtain ⟨htrace, hlevel, hout⟩ := Port.mk.inj hport
  · exact ⟨[], by simp [htrace], by simp, fun _ => hlevel, fun _ => hout, fun _ => rfl⟩
  · exact ⟨[e], htrace, le_rfl, fun _ => hlevel, fun _ => hout, fun h => absurd hturn h⟩
  · exact ⟨[], by simp [htrace], by simp, fun _ => hlevel, fun h => absurd ha (h p b), fun _ => rfl⟩
  · exact ⟨[], by simp [htrace], by simp, fun h => absurd ha (h p b), fun _ => hout, fun _ => rfl⟩
  · exact ⟨[], by simp [htrace], by simp, fun _ => hlevel, fun _ => hout, fun _ => rfl⟩

end Sys2Proof.Machine
end

section
/-! PROOF. The encoding: what a command word's fields say of the instruction it decodes to, and from it the round trips
(O1, O2), the masks (O3), the illegal words (O6), the CH_* offsets (O5) and the assembling examples (O4). -/

namespace Sys2Proof

variable {w : Word} {i : Instr}

/-! ## The command table of 30_encoding.md R98, read by fields -/

/-- The word `w` is a command word of `i`: the opcode, the zeros of the reserved bits, and the operands. -/
def Instr.ReadFrom (w : Word) : Instr → Prop
  | .nop => opcField w = 0x0#4 ∧ w.extractLsb' 0 28 = 0#28
  | .advance m d cnt => opcField w = 0x1#4 ∧ rsvField w = 0#7 ∧ m = motorField w ∧ d = dirField w ∧ cnt = countField w
  | .deenergize m => opcField w = 0x2#4 ∧ w.extractLsb' 0 24 = 0#24 ∧ m = motorField w
  | .load m d cnt => opcField w = 0x3#4 ∧ rsvField w = 0#7 ∧ m = motorField w ∧ d = dirField w ∧ cnt = countField w
  | .run => opcField w = 0x4#4 ∧ w.extractLsb' 0 28 = 0#28
  | .clear => opcField w = 0x5#4 ∧ w.extractLsb' 0 28 = 0#28
  | .clrerr => opcField w = 0x6#4 ∧ w.extractLsb' 0 28 = 0#28
  | .illegalOpc7 rest => opcField w = 0x7#4 ∧ rest = w.extractLsb' 0 28
  | .illegalOpc8F rest => 8 ≤ (opcField w).toNat ∧ rest = w.extractLsb' 0 31
  | .wrChCtrl _ _ => False
  | .wrChPins _ _ => False
  | .wrChDelay _ _ => False

theorem ifReservedZero_eq_ok_iff {zero : Bool} {k : Instr} :
    ifReservedZero zero k = .ok i ↔ zero = true ∧ k = i := by
  cases zero <;> simp [ifReservedZero]

theorem ifReservedZero_eq_error_iff {zero : Bool} {k : Instr} {e : DecodeError} :
    ifReservedZero zero k = .error e ↔ zero = false ∧ .reservedBits = e := by
  cases zero <;> simp [ifReservedZero]

/-- The word's opcode from its value. -/
theorem opcField_eq_of_toNat {n : Nat} (h : (opcField w).toNat = n) : opcField w = BitVec.ofNat 4 n := by
  rw [← h, BitVec.ofNat_toNat, BitVec.setWidth_eq]

theorem readFrom_of_decodeCommand (h : decodeCommand w = .ok i) : i.ReadFrom w := by
  unfold decodeCommand at h
  split at h
  case h_8 hopc =>
    cases h
    exact ⟨opcField_eq_of_toNat hopc, rfl⟩
  case h_9 =>
    cases h
    refine ⟨?_, rfl⟩
    show 8 ≤ (opcField w).toNat
    simp only [imp_false] at *
    omega
  all_goals
    next hopc =>
      obtain ⟨hzero, rfl⟩ := ifReservedZero_eq_ok_iff.mp h
      exact ⟨opcField_eq_of_toNat hopc, by simpa using hzero⟩

theorem decodeCommand_of_readFrom (h : i.ReadFrom w) : decodeCommand w = .ok i := by
  unfold decodeCommand
  cases i with
  | nop => obtain ⟨hopc, hzero⟩ := h; simp [hopc, hzero, ifReservedZero]
  | advance m d cnt => obtain ⟨hopc, hzero, rfl, rfl, rfl⟩ := h; simp [hopc, hzero, ifReservedZero]
  | deenergize m => obtain ⟨hopc, hzero, rfl⟩ := h; simp [hopc, hzero, ifReservedZero]
  | load m d cnt => obtain ⟨hopc, hzero, rfl, rfl, rfl⟩ := h; simp [hopc, hzero, ifReservedZero]
  | run => obtain ⟨hopc, hzero⟩ := h; simp [hopc, hzero, ifReservedZero]
  | clear => obtain ⟨hopc, hzero⟩ := h; simp [hopc, hzero, ifReservedZero]
  | clrerr => obtain ⟨hopc, hzero⟩ := h; simp [hopc, hzero, ifReservedZero]
  | illegalOpc7 rest => obtain ⟨hopc, rfl⟩ := h; simp [hopc]
  | illegalOpc8F rest =>
    obtain ⟨hopc, rfl⟩ := h
    split
    case h_9 => rfl
    all_goals omega
  | wrChCtrl m v => exact h.elim
  | wrChPins m v => exact h.elim
  | wrChDelay m v => exact h.elim

/-- `Decode` of 30_encoding.md R99 is the table of R98. -/
theorem decodeCommand_eq_ok_iff : decodeCommand w = .ok i ↔ i.ReadFrom w :=
  ⟨readFrom_of_decodeCommand, decodeCommand_of_readFrom⟩

/-! ## A command word and its fields (30_encoding.md R91 to R94) -/

theorem opcField_toNat (w : Word) : (opcField w).toNat = w.toNat / 2 ^ 28 % 2 ^ 4 := field_toNat w 28 4

theorem dirBit_dirField (w : Word) : (dirBit (dirField w)).toNat = w.toNat / 2 ^ 23 % 2 := by
  unfold dirField
  rw [getLsbD_eq_field]
  obtain h | h := Nat.mod_two_eq_zero_or_one (w.toNat / 2 ^ 23) <;> rw [h] <;> rfl

theorem ofInt_countField (w : Word) : BitVec.ofInt 16 (countField w) = w.extractLsb' 0 16 := BitVec.ofInt_toInt

theorem countFits_countField (w : Word) : countFits (countField w) :=
  ⟨BitVec.le_toInt (w.extractLsb' 0 16), by
    have := BitVec.toInt_lt (x := w.extractLsb' 0 16)
    unfold countField
    omega⟩

/-- A word of opcode `o` with no reserved bit set is its fields in format MDC (R92). -/
theorem encodeMDC_fields {o : BitVec 4} (hopc : opcField w = o) (hzero : rsvField w = 0#7) :
    encodeMDC o (motorField w) (dirField w) (countField w) = w := by
  have hopc : w.toNat / 2 ^ 28 % 2 ^ 4 = o.toNat := by rw [← hopc, opcField_toNat]
  have hzero : w.toNat / 2 ^ 16 % 2 ^ 7 = 0 := by rw [← field_toNat]; exact congrArg BitVec.toNat hzero
  apply BitVec.eq_of_toNat_eq
  simp only [encodeMDC, packed_toNat, toNat_cat, ofInt_countField, dirBit_dirField, motorField, field_toNat,
    BitVec.toNat_ofNat]
  omega

/-- The same in format M (R93). -/
theorem encodeM_fields {o : BitVec 4} (hopc : opcField w = o) (hzero : w.extractLsb' 0 24 = 0#24) :
    encodeM o (motorField w) = w := by
  have hopc : w.toNat / 2 ^ 28 % 2 ^ 4 = o.toNat := by rw [← hopc, opcField_toNat]
  have hzero : w.toNat / 2 ^ 0 % 2 ^ 24 = 0 := by rw [← field_toNat, hzero]; rfl
  apply BitVec.eq_of_toNat_eq
  simp only [encodeM, packed_toNat, toNat_cat, motorField, field_toNat, BitVec.toNat_ofNat]
  omega

/-- The same in format Z (R94). -/
theorem encodeZ_fields {o : BitVec 4} (hopc : opcField w = o) (hzero : w.extractLsb' 0 28 = 0#28) :
    encodeZ o = w := by
  have hopc : w.toNat / 2 ^ 28 % 2 ^ 4 = o.toNat := by rw [← hopc, opcField_toNat]
  have hzero : w.toNat / 2 ^ 0 % 2 ^ 28 = 0 := by rw [← field_toNat, hzero]; rfl
  apply BitVec.eq_of_toNat_eq
  simp only [encodeZ, packed_toNat, toNat_cat, BitVec.toNat_ofNat]
  omega

theorem packed_opcode_rest {o : BitVec 4} (hopc : opcField w = o) : packed (o ++ w.extractLsb' 0 28) = w := by
  have hopc : w.toNat / 2 ^ 28 % 2 ^ 4 = o.toNat := by rw [← hopc, opcField_toNat]
  apply BitVec.eq_of_toNat_eq
  simp only [packed_toNat, toNat_cat, field_toNat]
  omega

theorem packed_one_rest (hopc : 8 ≤ (opcField w).toNat) : packed (1#1 ++ w.extractLsb' 0 31) = w := by
  rw [opcField_toNat] at hopc
  apply BitVec.eq_of_toNat_eq
  simp only [packed_toNat, toNat_cat, field_toNat, BitVec.toNat_ofNat]
  omega

theorem opcField_packed (o : BitVec 4) (r : BitVec 28) : opcField (packed (o ++ r)) = o := by
  apply BitVec.eq_of_toNat_eq
  simp only [opcField, field_toNat, packed_toNat, toNat_cat]
  omega

theorem low28_packed (o : BitVec 4) (r : BitVec 28) : (packed (o ++ r)).extractLsb' 0 28 = r := by
  apply BitVec.eq_of_toNat_eq
  simp only [field_toNat, packed_toNat, toNat_cat]
  omega

theorem eight_le_opcField_packed_one (r : BitVec 31) : 8 ≤ (opcField (packed (1#1 ++ r))).toNat := by
  simp only [opcField, field_toNat, packed_toNat, toNat_cat, BitVec.toNat_ofNat]
  omega

theorem low31_packed_one (r : BitVec 31) : (packed (1#1 ++ r)).extractLsb' 0 31 = r := by
  apply BitVec.eq_of_toNat_eq
  simp only [field_toNat, packed_toNat, toNat_cat, BitVec.toNat_ofNat]
  omega

/-! ## The round trips -/

/-- The CH_* write of an offset off CMD (30_encoding.md R103). -/
theorem decode_channelWrite {off : Nat} {v : Word} (h : decodeChannelWrite off v = some i) :
    decode ⟨off, v⟩ = .ok i := by
  obtain ⟨hpage, -⟩ := Machine.decodeChannelWrite_eq_some h
  have hoff : off ≠ 0 := by omega
  simp [decode, hoff, h]

theorem decodeChannelWrite_ctrl (m : MotorId) (v : Word) :
    decodeChannelWrite (channelOffset 0x100 m) v = some (.wrChCtrl m v) := by
  have hpage : channelOffset 0x100 m / 256 = 1 := by unfold channelOffset; omega
  have hreg : channelOffset 0x100 m % 16 = 0x0 := by unfold channelOffset; omega
  simp [decodeChannelWrite, hpage, hreg, channelOfOffset_channelOffset m 0 (by decide)]

/-- Settles O1: the fields of each encoding are its operands. -/
theorem decodeOfEncode : Obligations.DecodeOfEncode := by
  intro i hwf
  cases i with
  | nop => rfl
  | advance m d cnt =>
    exact decodeCommand_of_readFrom ⟨opcField_encodeMDC .., rsvField_encodeMDC .., (motorField_encodeMDC ..).symm,
      (dirField_encodeMDC ..).symm, (countField_encodeMDC _ _ _ _ (of_decide_eq_true hwf)).symm⟩
  | deenergize m =>
    exact decodeCommand_of_readFrom ⟨opcField_encodeM .., low24_encodeM .., (motorField_encodeM ..).symm⟩
  | load m d cnt =>
    exact decodeCommand_of_readFrom ⟨opcField_encodeMDC .., rsvField_encodeMDC .., (motorField_encodeMDC ..).symm,
      (dirField_encodeMDC ..).symm, (countField_encodeMDC _ _ _ _ (of_decide_eq_true hwf)).symm⟩
  | run => rfl
  | clear => rfl
  | clrerr => rfl
  | illegalOpc7 rest => exact decodeCommand_of_readFrom ⟨opcField_packed .., (low28_packed ..).symm⟩
  | illegalOpc8F rest => exact decodeCommand_of_readFrom ⟨eight_le_opcField_packed_one _, (low31_packed_one _).symm⟩
  | wrChCtrl m v => exact decode_channelWrite (decodeChannelWrite_ctrl m v)
  | wrChPins m v => exact decode_channelWrite (Machine.decodeChannelWrite_channel m v).1
  | wrChDelay m v => exact decode_channelWrite (Machine.decodeChannelWrite_channel m v).2

/-- A word is the encoding of the instruction read from its fields. -/
theorem encode_of_readFrom (h : i.ReadFrom w) : encode i = ⟨0x000, w⟩ ∧ i.wf = true := by
  cases i with
  | nop => obtain ⟨hopc, hzero⟩ := h; exact ⟨congrArg _ (encodeZ_fields hopc hzero), rfl⟩
  | advance m d cnt =>
    obtain ⟨hopc, hzero, rfl, rfl, rfl⟩ := h
    exact ⟨congrArg _ (encodeMDC_fields hopc hzero), decide_eq_true (countFits_countField w)⟩
  | deenergize m => obtain ⟨hopc, hzero, rfl⟩ := h; exact ⟨congrArg _ (encodeM_fields hopc hzero), rfl⟩
  | load m d cnt =>
    obtain ⟨hopc, hzero, rfl, rfl, rfl⟩ := h
    exact ⟨congrArg _ (encodeMDC_fields hopc hzero), decide_eq_true (countFits_countField w)⟩
  | run => obtain ⟨hopc, hzero⟩ := h; exact ⟨congrArg _ (encodeZ_fields hopc hzero), rfl⟩
  | clear => obtain ⟨hopc, hzero⟩ := h; exact ⟨congrArg _ (encodeZ_fields hopc hzero), rfl⟩
  | clrerr => obtain ⟨hopc, hzero⟩ := h; exact ⟨congrArg _ (encodeZ_fields hopc hzero), rfl⟩
  | illegalOpc7 rest => obtain ⟨hopc, rfl⟩ := h; exact ⟨congrArg _ (packed_opcode_rest hopc), rfl⟩
  | illegalOpc8F rest => obtain ⟨hopc, rfl⟩ := h; exact ⟨congrArg _ (packed_one_rest hopc), rfl⟩
  | wrChCtrl m v => exact h.elim
  | wrChPins m v => exact h.elim
  | wrChDelay m v => exact h.elim

/-- An offset of a channel's register is the channel's base and the register's place. -/
theorem channelOffset_channelOfOffset {off low : Nat} (hpage : off / 256 = 1) (hlow : off % 16 = low) :
    channelOffset (0x100 + low) (channelOfOffset off) = off := by
  rw [channelOffset, Machine.channelOfOffset_toNat]
  omega

theorem encode_of_decodeChannelWrite {off : Nat} {v : Word} (h : decodeChannelWrite off v = some i) :
    encode i = ⟨off, v⟩ ∧ i.wf = true := by
  obtain ⟨hpage, ⟨hlow, rfl⟩ | ⟨hlow, rfl⟩ | ⟨hlow, rfl⟩⟩ := Machine.decodeChannelWrite_eq_some h <;>
    exact ⟨congrArg (BusWrite.mk · v) (channelOffset_channelOfOffset hpage hlow), rfl⟩

/-- Settles O2: at CMD the word's fields give it back, at a CH_* offset the channel and the register do. -/
theorem encodeOfDecode : Obligations.EncodeOfDecode := by
  rintro ⟨off, v⟩ i h
  by_cases hoff : off = 0
  · subst hoff
    exact encode_of_readFrom (readFrom_of_decodeCommand h)
  · rw [decode, if_neg hoff] at h
    split at h
    next k hk =>
      cases h
      exact encode_of_decodeChannelWrite hk
    next => cases h

/-! ## Masks (30_encoding.md R98) -/

/-- A word is known by the fields of format MDC. -/
theorem eq_of_fieldsMDC {v : Word} (hopc : opcField w = opcField v) (hmid : w.extractLsb' 23 5 = v.extractLsb' 23 5)
    (hrsv : rsvField w = rsvField v) (hlow : w.extractLsb' 0 16 = v.extractLsb' 0 16) : w = v := by
  simp only [opcField, rsvField, BitVec.toNat_eq, field_toNat] at hopc hmid hrsv hlow
  apply BitVec.eq_of_toNat_eq
  omega

/-- And by those of format M. -/
theorem eq_of_fieldsM {v : Word} (hopc : opcField w = opcField v) (hmotor : motorField w = motorField v)
    (hlow : w.extractLsb' 0 24 = v.extractLsb' 0 24) : w = v := by
  simp only [opcField, motorField, BitVec.toNat_eq, field_toNat] at hopc hmotor hlow
  apply BitVec.eq_of_toNat_eq
  omega

theorem opcField_and (w k : Word) : opcField (w &&& k) = opcField w &&& opcField k := BitVec.extractLsb'_and

theorem rsvField_and (w k : Word) : rsvField (w &&& k) = rsvField w &&& rsvField k := BitVec.extractLsb'_and

theorem motorField_and (w k : Word) : motorField (w &&& k) = motorField w &&& motorField k := BitVec.extractLsb'_and

theorem field_encodeZ (o : BitVec 4) {lo len : Nat} (h : lo + len ≤ 28) : (encodeZ o).extractLsb' lo len = 0#len := by
  have hsum : 28 = len + lo + (28 - (len + lo)) := by omega
  apply BitVec.eq_of_toNat_eq
  rw [field_toNat, encodeZ, packed_toNat, toNat_cat, hsum, pow_add, pow_add]
  simp [Nat.mul_assoc, Nat.mul_left_comm]

/-- Format MDC: the mask 0xF07F_0000 keeps the opcode and RSV. -/
theorem and_maskMDC_eq_iff (o : BitVec 4) :
    w &&& 0xF07F_0000#32 = encodeZ o ↔ opcField w = o ∧ rsvField w = 0#7 := by
  have hopc : opcField (w &&& 0xF07F_0000#32) = opcField w := (opcField_and ..).trans BitVec.and_allOnes
  have hrsv : rsvField (w &&& 0xF07F_0000#32) = rsvField w := (rsvField_and ..).trans BitVec.and_allOnes
  have hmid : (w &&& 0xF07F_0000#32).extractLsb' 23 5 = 0#5 := BitVec.extractLsb'_and.trans BitVec.and_zero
  have hlow : (w &&& 0xF07F_0000#32).extractLsb' 0 16 = 0#16 := BitVec.extractLsb'_and.trans BitVec.and_zero
  rw [← hopc, ← hrsv]
  refine ⟨fun h => ?_, fun ⟨ho, hr⟩ => eq_of_fieldsMDC ?_ ?_ ?_ ?_⟩
  · rw [h]
    exact ⟨opcField_encodeZ o, field_encodeZ o (by decide)⟩
  · rw [ho, opcField_encodeZ]
  · rw [hmid, field_encodeZ o (by decide)]
  · exact hr.trans (field_encodeZ o (by decide)).symm
  · rw [hlow, field_encodeZ o (by decide)]

/-- Format M: the mask 0xF0FF_FFFF keeps the opcode and the low 24 bits. -/
theorem and_maskM_eq_iff (o : BitVec 4) :
    w &&& 0xF0FF_FFFF#32 = encodeZ o ↔ opcField w = o ∧ w.extractLsb' 0 24 = 0#24 := by
  have hopc : opcField (w &&& 0xF0FF_FFFF#32) = opcField w := (opcField_and ..).trans BitVec.and_allOnes
  have hmotor : motorField (w &&& 0xF0FF_FFFF#32) = 0#4 := (motorField_and ..).trans BitVec.and_zero
  have hlow : (w &&& 0xF0FF_FFFF#32).extractLsb' 0 24 = w.extractLsb' 0 24 :=
    BitVec.extractLsb'_and.trans BitVec.and_allOnes
  rw [← hopc, ← hlow]
  refine ⟨fun h => ?_, fun ⟨ho, hl⟩ => eq_of_fieldsM ?_ ?_ ?_⟩
  · rw [h]
    exact ⟨opcField_encodeZ o, field_encodeZ o (by decide)⟩
  · rw [ho, opcField_encodeZ]
  · exact hmotor.trans (field_encodeZ o (by decide)).symm
  · rw [hl, field_encodeZ o (by decide)]

/-- Format Z: the mask keeps every bit. -/
theorem and_maskZ_eq_iff (o : BitVec 4) :
    w &&& 0xFFFF_FFFF#32 = encodeZ o ↔ opcField w = o ∧ w.extractLsb' 0 28 = 0#28 := by
  have hmask : w &&& 0xFFFF_FFFF#32 = w := BitVec.and_allOnes
  rw [hmask]
  exact ⟨fun h => h ▸ ⟨opcField_encodeZ o, low28_encodeZ o⟩, fun ⟨ho, hl⟩ => (encodeZ_fields ho hl).symm⟩

/-- The mask 0xF000_0000 keeps the opcode. -/
theorem and_maskOpc_eq_iff (o : BitVec 4) : w &&& 0xF000_0000#32 = encodeZ o ↔ opcField w = o := by
  have hopc : opcField (w &&& 0xF000_0000#32) = opcField w := (opcField_and ..).trans BitVec.and_allOnes
  have hlow : (w &&& 0xF000_0000#32).extractLsb' 0 28 = 0#28 := BitVec.extractLsb'_and.trans BitVec.and_zero
  refine ⟨fun h => ?_, fun ho => (encodeZ_fields (hopc.trans ho) hlow).symm⟩
  rw [← hopc, h, opcField_encodeZ]

/-- The mask 0x8000_0000 keeps bit 31, which says whether the opcode is 8 or more. -/
theorem and_maskTop_eq_iff : w &&& 0x8000_0000#32 = 0x8000_0000#32 ↔ 8 ≤ (opcField w).toNat := by
  have hopc : opcField (w &&& 0x8000_0000#32) = opcField w &&& 0x8#4 := opcField_and ..
  have hlow : (w &&& 0x8000_0000#32).extractLsb' 0 28 = 0#28 := BitVec.extractLsb'_and.trans BitVec.and_zero
  have htop : ∀ o : BitVec 4, o &&& 0x8#4 = 0x8#4 ↔ 8 ≤ o.toNat := by decide
  rw [← htop, ← hopc]
  exact ⟨fun h => congrArg opcField h, fun h => (encodeZ_fields h hlow).symm⟩

/-- Settles O3: the masks keep the opcode and the reserved bits. -/
theorem decodeMeetsMaskMatch : Obligations.DecodeMeetsMaskMatch := by
  intro w
  simp only [decodeCommand_eq_ok_iff, Instr.ReadFrom]
  refine ⟨?_, ?_, ?_, ?_, ?_, ?_, ?_, ?_, ?_⟩
  · exact (and_maskZ_eq_iff 0x0#4).symm
  · exact Iff.trans (by simp) (and_maskMDC_eq_iff 0x1#4).symm
  · exact Iff.trans (by simp) (and_maskM_eq_iff 0x2#4).symm
  · exact Iff.trans (by simp) (and_maskMDC_eq_iff 0x3#4).symm
  · exact (and_maskZ_eq_iff 0x4#4).symm
  · exact (and_maskZ_eq_iff 0x5#4).symm
  · exact (and_maskZ_eq_iff 0x6#4).symm
  · exact Iff.trans (by simp) (and_maskOpc_eq_iff 0x7#4).symm
  · exact Iff.trans (by simp) and_maskTop_eq_iff.symm

/-! ## Illegal words (43_control.md R202) -/

/-- The decoder refuses a word for its reserved bits only, and such a word is illegal. -/
theorem illegalWord_of_error {e : DecodeError} (h : decodeCommand w = .error e) :
    e = .reservedBits ∧ Machine.IllegalWord w := by
  unfold decodeCommand at h
  unfold Machine.IllegalWord
  split at h
  case h_8 => cases h
  case h_9 => cases h
  all_goals
    next hopc =>
      obtain ⟨hzero, rfl⟩ := ifReservedZero_eq_error_iff.mp h
      exact ⟨rfl, by simpa [hopc] using hzero⟩

/-- A word read as a legal command is not illegal. -/
theorem not_illegalWord_of_readFrom (h : i.ReadFrom w) :
    (∃ r, i = .illegalOpc7 r) ∨ (∃ r, i = .illegalOpc8F r) ∨ ¬ Machine.IllegalWord w := by
  unfold Machine.IllegalWord
  cases i with
  | nop => obtain ⟨hopc, hzero⟩ := h; simp [hopc, hzero]
  | advance m d cnt => obtain ⟨hopc, hzero, -⟩ := h; simp [hopc, hzero]
  | deenergize m => obtain ⟨hopc, hzero, -⟩ := h; simp [hopc, hzero]
  | load m d cnt => obtain ⟨hopc, hzero, -⟩ := h; simp [hopc, hzero]
  | run => obtain ⟨hopc, hzero⟩ := h; simp [hopc, hzero]
  | clear => obtain ⟨hopc, hzero⟩ := h; simp [hopc, hzero]
  | clrerr => obtain ⟨hopc, hzero⟩ := h; simp [hopc, hzero]
  | illegalOpc7 rest => simp
  | illegalOpc8F rest => simp
  | wrChCtrl m v => exact h.elim
  | wrChPins m v => exact h.elim
  | wrChDelay m v => exact h.elim

/-- Settles O6: what the decoder refuses has a reserved bit set, and what it reads as a legal command has none. -/
theorem illegalWordsDecodeIllegal : Obligations.IllegalWordsDecodeIllegal := by
  intro w
  refine ⟨fun hill => ?_, ?_⟩
  · cases hd : decodeCommand w with
    | error e =>
      obtain ⟨rfl, -⟩ := illegalWord_of_error hd
      exact .inl rfl
    | ok i =>
      obtain ⟨r, rfl⟩ | ⟨r, rfl⟩ | hlegal := not_illegalWord_of_readFrom (readFrom_of_decodeCommand hd)
      · exact .inr (.inl ⟨r, rfl⟩)
      · exact .inr (.inr ⟨r, rfl⟩)
      · exact absurd hill hlegal
  · rintro (hd | ⟨r, hd⟩ | ⟨r, hd⟩)
    · exact (illegalWord_of_error hd).2
    · obtain ⟨hopc, -⟩ := readFrom_of_decodeCommand hd
      exact .inl (by simp [hopc])
    · obtain ⟨hopc, -⟩ := readFrom_of_decodeCommand hd
      exact .inl (by omega)

/-! ## The CH_* offsets (30_encoding.md R103) -/

/-- `off & 0xF0F` keeps `off[11:8]` and `off[3:0]`. -/
theorem and_F0F (off : Nat) : off &&& 0xF0F = off / 256 % 16 * 256 + off % 16 := by
  have hmask : 0xF0F = 0xF <<< 8 ||| (2 ^ 4 - 1) := rfl
  have hhigh : off &&& 0xF <<< 8 = (off >>> 8 &&& (2 ^ 4 - 1)) <<< 8 := by
    apply Nat.eq_of_testBit_eq
    intro i
    simp only [Nat.testBit_and, Nat.testBit_shiftLeft, Nat.testBit_shiftRight]
    by_cases hi : 8 ≤ i
    · simp only [hi, Nat.add_sub_cancel' hi, Nat.reducePow, Nat.add_one_sub_one, decide_true, Bool.true_and]
    · simp [hi]
  have hlow : off % 2 ^ 4 < 2 ^ 8 := by omega
  rw [hmask, Nat.and_or_distrib_left, Nat.and_two_pow_sub_one_eq_mod, hhigh, Nat.and_two_pow_sub_one_eq_mod,
    ← Nat.shiftLeft_add_eq_or_of_lt hlow, Nat.shiftLeft_eq, Nat.shiftRight_eq_div_pow]
  rfl

theorem ofNat_shiftRight_four (off : Nat) : BitVec.ofNat 4 (off >>> 4) = channelOfOffset off := by
  apply BitVec.eq_of_toNat_eq
  rw [BitVec.toNat_ofNat, Machine.channelOfOffset_toNat, Nat.shiftRight_eq_div_pow]

/-- Settles O5: below 0x1000 the mask tells the page `off[11:8]` and the register `off[3:0]` apart, as the decoder does. -/
theorem channelWriteSelectedByOffset : Obligations.ChannelWriteSelectedByOffset := by
  intro off v hoff
  rw [ofNat_shiftRight_four, and_F0F]
  unfold decodeChannelWrite
  split
  · split <;> simp only [Option.some.injEq, reduceCtorEq, false_iff, true_iff, ne_eq, not_and, Decidable.not_not]
    · omega
    · omega
    · omega
    · simp only [imp_false] at *
      omega
  · simp only [reduceCtorEq, false_iff, ne_eq, true_iff]
    omega

/-- Settles O4: each line read and each word decoded. -/
theorem assemblingExamples : Obligations.AssemblingExamples := by
  unfold Obligations.AssemblingExamples
  decide

end Sys2Proof
end

section
/-! PROOF. What the writes of a decoded word do: a CH_* write (O8), an illegal word (O12), and the expansions of `config`
and `release` (O56). -/

namespace Sys2Proof.Machine

variable {s t : State}

/-- Settles O8: the write's offset is admitted, and its turn is the host's. -/
theorem stepRunsChannelWrite : Obligations.StepRunsChannelWrite :=
  fun _ _ _ _ _ ha hi => step_channelWrite hi ha

/-! ## Illegal words (43_control.md R202, 60_exceptions.md R221) -/

theorem pack_opc (o : BitVec 4) : ErrInfo.pack { opc := o } = packed (0#28 ++ o) := by
  apply BitVec.eq_of_toNat_eq
  rw [pack_toNat, packed_toNat, toNat_cat]
  simp

theorem raiseIllegal_eq_endedByError (o : BitVec 4) (s : State) :
    raiseIllegal o s = endedByError .illegal (packed (0#28 ++ o)) s.slots s := by
  rw [raiseIllegal, raise_eq_endedByError, pack_opc]
  rfl

/-- The opcode that ILLEGAL_OPC8_F's meaning puts together is the word's own. -/
theorem opcode_of_rest {w : Word} (h : 8 ≤ (opcField w).toNat) :
    1#1 ++ (w.extractLsb' 0 31).extractLsb' 28 3 = opcField w := by
  rw [opcField_toNat] at h
  apply BitVec.eq_of_toNat_eq
  simp only [toNat_cat, field_toNat, opcField_toNat, BitVec.toNat_ofNat]
  omega

/-- The decode step of an illegal word raises E_ILLEGAL with its opcode, in each of the decoder's three answers. -/
theorem decodeStep_illegalWord (h : IllegalWord s.cmdl) : decodeStep s = .next (raiseIllegal (opcField s.cmdl) s) := by
  obtain hd | ⟨r, hd⟩ | ⟨r, hd⟩ := (illegalWordsDecodeIllegal s.cmdl).mp h <;> simp only [decodeStep, hd]
  · rfl
  · obtain ⟨hopc, -⟩ := readFrom_of_decodeCommand hd
    rw [hopc]
    rfl
  · obtain ⟨hopc, rfl⟩ := readFrom_of_decodeCommand hd
    rw [← opcode_of_rest hopc]
    rfl

theorem step_of_accepted {w : Word} (h : Accepted w s) : step s = decodeStep s := by
  simp only [step, h.agenda, sequencerStep, h.cont]

/-- Settles O12: the accepted word's step is its decode step. -/
theorem acceptedIllegalWordRaises : Obligations.AcceptedIllegalWordRaises := by
  intro w s hill hacc
  obtain rfl := hacc.cmdl
  rw [step_of_accepted hacc, decodeStep_illegalWord hill, raiseIllegal_eq_endedByError]

/-! ## The expansions of config and release (30_encoding.md R109, R110) -/

theorem exec_wrChCtrl_idle {m : MotorId} (v : Word) (hidle : s.busy = false) (hm : m.toNat < s.cfg.nm) :
    exec (.wrChCtrl m v) s = .next (s.setChan m { s.chan m with
      valid := v.getLsbD 0, mode := if v.getLsbD 1 then .full else .half }) :=
  congrArg Host.Outcome.next (writeChannel_idle s m _ hm hidle)

/-- The word `config` writes to CH_PINS holds pin id `j` in byte `j`. -/
theorem packed_pins_byte (p0 p1 p2 p3 : PinId) :
    (packed (p3 ++ p2 ++ p1 ++ p0)).extractLsb' 0 8 = p0 ∧ (packed (p3 ++ p2 ++ p1 ++ p0)).extractLsb' 8 8 = p1 ∧
      (packed (p3 ++ p2 ++ p1 ++ p0)).extractLsb' 16 8 = p2 ∧
      (packed (p3 ++ p2 ++ p1 ++ p0)).extractLsb' 24 8 = p3 := by
  have hbyte := pinsWord_byte { Channel.unbuilt with pin0 := p0, pin1 := p1, pin2 := p2, pin3 := p3 }
  exact ⟨hbyte 0, hbyte 1, hbyte 2, hbyte 3⟩

/-- The word `config` writes to CH_CTRL sets VALID and MODE. -/
theorem packed_ctrl_bits (mode : Mode) :
    (packed (0#30 ++ modeBit mode ++ 1#1)).getLsbD 0 = true ∧
      (if (packed (0#30 ++ modeBit mode ++ 1#1)).getLsbD 1 then Mode.full else .half) = mode := by
  cases mode <;> exact ⟨rfl, rfl⟩

/-- A run whose first turn is a write to a channel's register. -/
theorem run_channelWrite {n off : Nat} {v : Word} {i : Instr} {rest : List Turn} {u : State}
    (hi : decodeChannelWrite off v = some i) (ha : s.agenda = wrTurn off v :: rest)
    (hexec : exec i (answer .ok { s with agenda := rest }) = .next u) (hrun : Sys2Proof.core.run n u = .next t) :
    Sys2Proof.core.run (n + 1) s = .next t :=
  run_succ_eq_next_iff.mpr ⟨u, (step_channelWrite hi ha).trans hexec, hrun⟩

/-- Settles O56: three writes of one channel, each of its own fields; and one write of VALID and MODE. -/
theorem configConstructsChannel : Obligations.ConfigConstructsChannel := by
  intro s m mode p0 p1 p2 p3 delay hidle hm
  refine ⟨fun ha => ?_, fun ha => ?_⟩
  · obtain ⟨hp0, hp1, hp2, hp3⟩ := packed_pins_byte p0 p1 p2 p3
    obtain ⟨hvalid, hmode⟩ := packed_ctrl_bits mode
    refine run_channelWrite (decodeChannelWrite_channel m _).1 ha (exec_wrChPins_idle _ hidle hm) ?_
    refine run_channelWrite (decodeChannelWrite_channel m _).2 rfl (exec_wrChDelay_idle _ hidle hm) ?_
    refine run_channelWrite (decodeChannelWrite_ctrl m _) rfl (exec_wrChCtrl_idle _ hidle hm) ?_
    refine congrArg Host.Outcome.next ?_
    rw [hp0, hp1, hp2, hp3, hvalid, hmode]
    simp only [State.setChan, State.chan, answer, Vector.getElem_set_self, Vector.set_set, List.append_assoc]
    rfl
  · exact run_channelWrite (decodeChannelWrite_ctrl m 0#32) ha (exec_wrChCtrl_idle 0#32 hidle hm) rfl

end Sys2Proof.Machine
end

section
/-! PROOF. A command under `wait`: the sequencer does not see the host's turns, so the steps it takes between the polls
are those it would take alone; `wait` ends when they end. -/

namespace Sys2Proof.Machine

variable {s t u : State} {o o' : Outcome}

/-! ## The sequencer reads neither the agenda nor the answers -/

/-- The state with other turns to come and other answers given. -/
def State.atTurns (s : State) (agenda : List Turn) (answers : List Answer) : State :=
  { s with agenda := agenda, answers := answers }

/-- The outcome with other turns to come and other answers given. -/
def onTurns (agenda : List Turn) (answers : List Answer) : Outcome → Outcome
  | .next s => .next (s.atTurns agenda answers)
  | .fault r => .fault r
  | .refused r => .refused r

section
variable (s : State) (agenda : List Turn) (answers : List Answer)

@[simp] theorem recordError_atTurns (code : ErrCode) (info : ErrInfo) :
    recordError code info (s.atTurns agenda answers) = (recordError code info s).atTurns agenda answers := by
  rw [recordError_eq_recorded, recordError_eq_recorded]
  rfl

@[simp] theorem raise_atTurns (code : ErrCode) (info : ErrInfo) (inRun : Bool) :
    raise code info inRun (s.atTurns agenda answers) = (raise code info inRun s).atTurns agenda answers := by
  rw [raise_eq_endedByError, raise_eq_endedByError]
  rfl

@[simp] theorem drawAnswer_atTurns :
    drawAnswer (s.atTurns agenda answers) = (drawAnswer s).atTurns agenda answers := by
  cases hm : s.cfg.hostModel <;> simp [drawAnswer, State.atTurns, hm]

@[simp] theorem acceptedWrite_atTurns (p : PinId) (lvl : Bool) :
    acceptedWrite p lvl (s.atTurns agenda answers) = (acceptedWrite p lvl s).atTurns agenda answers := by
  unfold acceptedWrite
  rw [drawAnswer_atTurns]
  rfl

theorem firstBadSlot_atTurns (n : Nat) (slots : List Slot) :
    firstBadSlot (s.atTurns agenda answers) n slots = firstBadSlot s n slots := by
  induction slots generalizing n with
  | nil => rfl
  | cons sl rest ih => unfold firstBadSlot; rw [ih]; rfl

theorem writePin_atTurns (w : PatternWrite) (j : Fin 4) (next : State → Outcome)
    (hnext : ∀ u : State, next (u.atTurns agenda answers) = onTurns agenda answers (next u)) :
    writePin w j next (s.atTurns agenda answers) = onTurns agenda answers (writePin w j next s) := by
  have haccepts : ∀ p, hostAccepts (s.atTurns agenda answers) p = hostAccepts s p := fun _ => rfl
  have hpin : (s.atTurns agenda answers).chan w.motor = s.chan w.motor := rfl
  obtain ⟨hacc, hgo⟩ | ⟨hrej, hgo⟩ := writePin_cases s w j next
  · rw [hgo, writePin, hpin, haccepts, if_pos hacc, acceptedWrite_atTurns, hnext]
  · rw [hgo, writePin, hpin, haccepts, if_neg (by simp [hrej]), drawAnswer_atTurns, raise_atTurns]
    rfl

theorem runHead_atTurns : runHead (s.atTurns agenda answers) = onTurns agenda answers (runHead s) := by
  unfold runHead
  rw [apply_ite (onTurns agenda answers)]
  refine if_congr Iff.rfl ?_ rfl
  dsimp only [State.atTurns]
  cases seekActive s.slots s.slots.length s.runCur <;> rfl

theorem writeChannel_atTurns (m : MotorId) (f : Channel → Channel) :
    writeChannel m f (s.atTurns agenda answers) = (writeChannel m f s).atTurns agenda answers := by
  unfold writeChannel
  rw [apply_ite (State.atTurns · agenda answers), apply_ite (State.atTurns · agenda answers)]
  exact if_congr Iff.rfl (if_congr Iff.rfl (recordError_atTurns ..) rfl) rfl

theorem submit_atTurns (w : Word) : submit w (s.atTurns agenda answers) = (submit w s).atTurns agenda answers := by
  unfold submit
  rw [apply_ite (State.atTurns · agenda answers)]
  exact if_congr Iff.rfl (recordError_atTurns ..) rfl

theorem next_raise_atTurns (code : ErrCode) (info : ErrInfo) (inRun : Bool) :
    .next (raise code info inRun (s.atTurns agenda answers)) =
      onTurns agenda answers (.next (raise code info inRun s)) :=
  congrArg Host.Outcome.next (raise_atTurns ..)

/-- A check of a decode step that raises where it fails. -/
theorem check_atTurns {p : Prop} [Decidable p] {x y : Outcome} (code : ErrCode) (info : ErrInfo) (inRun : Bool)
    (hx : x = onTurns agenda answers y) :
    (if p then x else .next (raise code info inRun (s.atTurns agenda answers))) =
      onTurns agenda answers (if p then y else .next (raise code info inRun s)) := by
  rw [apply_ite (onTurns agenda answers)]
  exact if_congr Iff.rfl hx (next_raise_atTurns ..)

theorem execAdvance_atTurns (m : MotorId) (d : Dir) (cnt : Int) :
    execAdvance m d cnt (s.atTurns agenda answers) = onTurns agenda answers (execAdvance m d cnt s) := by
  refine check_atTurns s agenda answers _ _ _ ?_
  rw [apply_ite (onTurns agenda answers)]
  exact if_congr Iff.rfl (next_raise_atTurns ..) rfl

theorem execLoad_atTurns (m : MotorId) (d : Dir) (cnt : Int) :
    execLoad m d cnt (s.atTurns agenda answers) = onTurns agenda answers (execLoad m d cnt s) := by
  refine check_atTurns s agenda answers _ _ _ ?_
  rw [apply_ite (onTurns agenda answers)]
  exact if_congr Iff.rfl (next_raise_atTurns ..) (check_atTurns s agenda answers _ _ _ rfl)

theorem execRun_atTurns : execRun (s.atTurns agenda answers) = onTurns agenda answers (execRun s) := by
  have hbad : firstBadSlot (s.atTurns agenda answers) 0 (s.atTurns agenda answers).slots = firstBadSlot s 0 s.slots :=
    firstBadSlot_atTurns ..
  unfold execRun
  rw [hbad]
  cases firstBadSlot s 0 s.slots with
  | none => exact runHead_atTurns (startRun s) agenda answers
  | some bad => exact next_raise_atTurns ..

theorem exec_atTurns (i : Instr) : exec i (s.atTurns agenda answers) = onTurns agenda answers (exec i s) := by
  cases i with
  | nop => rfl
  | advance m d cnt => exact execAdvance_atTurns s agenda answers m d cnt
  | deenergize m => exact check_atTurns s agenda answers _ _ _ rfl
  | load m d cnt => exact execLoad_atTurns s agenda answers m d cnt
  | run => exact execRun_atTurns s agenda answers
  | clear => rfl
  | clrerr => rfl
  | illegalOpc7 r => exact next_raise_atTurns ..
  | illegalOpc8F r => exact next_raise_atTurns ..
  | wrChCtrl m v => exact congrArg Host.Outcome.next (writeChannel_atTurns ..)
  | wrChPins m v => exact congrArg Host.Outcome.next (writeChannel_atTurns ..)
  | wrChDelay m v => exact congrArg Host.Outcome.next (writeChannel_atTurns ..)

theorem decodeStep_atTurns : decodeStep (s.atTurns agenda answers) = onTurns agenda answers (decodeStep s) := by
  have hcmdl : (s.atTurns agenda answers).cmdl = s.cmdl := rfl
  unfold decodeStep
  rw [hcmdl]
  cases decodeCommand s.cmdl with
  | ok i => exact exec_atTurns s agenda answers i
  | error e => exact next_raise_atTurns ..

theorem advancePhaseStep_atTurns (j : Fin 4) :
    advancePhaseStep j (s.atTurns agenda answers) = onTurns agenda answers (advancePhaseStep j s) := by
  have hpat : (s.atTurns agenda answers).pattern (s.atTurns agenda answers).cmdMotor (s.atTurns agenda answers).advIdx =
    s.pattern s.cmdMotor s.advIdx := rfl
  unfold advancePhaseStep
  rw [hpat]
  cases s.pattern s.cmdMotor s.advIdx with
  | none => rfl
  | some p => exact writePin_atTurns _ _ _ _ _ _ fun _ => rfl

theorem runPhaseStep_atTurns (j : Fin 4) :
    runPhaseStep j (s.atTurns agenda answers) = onTurns agenda answers (runPhaseStep j s) := by
  have hslot : (s.atTurns agenda answers).slots[(s.atTurns agenda answers).runCur]? = s.slots[s.runCur]? := rfl
  unfold runPhaseStep
  rw [hslot]
  cases s.slots[s.runCur]? with
  | none => rfl
  | some sl =>
    have hpat : (s.atTurns agenda answers).pattern sl.motor sl.idx = s.pattern sl.motor sl.idx := rfl
    dsimp only
    rw [hpat]
    cases s.pattern sl.motor sl.idx with
    | none => rfl
    | some p => exact writePin_atTurns _ _ _ _ _ _ fun _ => rfl

theorem runDeenergizeStep_atTurns (j : Fin 4) :
    runDeenergizeStep j (s.atTurns agenda answers) = onTurns agenda answers (runDeenergizeStep j s) := by
  have hslot : (s.atTurns agenda answers).slots[(s.atTurns agenda answers).runCur]? = s.slots[s.runCur]? := rfl
  unfold runDeenergizeStep
  rw [hslot]
  cases s.slots[s.runCur]? with
  | none => rfl
  | some sl =>
    refine writePin_atTurns _ _ _ _ _ _ fun u => ?_
    split
    · exact runHead_atTurns (advanceCursor u) agenda answers
    · rfl

theorem runDwellStep_atTurns : runDwellStep (s.atTurns agenda answers) = onTurns agenda answers (runDwellStep s) := by
  have hslot : (s.atTurns agenda answers).slots[(s.atTurns agenda answers).runCur]? = s.slots[s.runCur]? := rfl
  cases hsl : s.slots[s.runCur]? with
  | none => rw [runDwellStep, runDwellStep, hslot, hsl]; rfl
  | some sl =>
    rw [runDwellStep_eq hsl, runDwellStep_eq (hslot.trans hsl), apply_ite (onTurns agenda answers)]
    exact if_congr Iff.rfl rfl (runHead_atTurns (advanceCursor (afterDwell sl s)) agenda answers)

/-- The sequencer's step is the same whatever the host's turns and answers are. -/
theorem sequencerStep_atTurns :
    sequencerStep (s.atTurns agenda answers) = onTurns agenda answers (sequencerStep s) := by
  have hcont : (s.atTurns agenda answers).cont = s.cont := rfl
  unfold sequencerStep
  rw [hcont]
  cases s.cont with
  | none => rfl
  | some c =>
    cases c with
    | decode => exact decodeStep_atTurns s agenda answers
    | advPhase j => exact advancePhaseStep_atTurns s agenda answers j
    | advDwell => rfl
    | deenergize j => exact writePin_atTurns _ _ _ _ _ _ fun _ => rfl
    | runPhase j => exact runPhaseStep_atTurns s agenda answers j
    | runDwell => exact runDwellStep_atTurns s agenda answers
    | runDeenergize j => exact runDeenergizeStep_atTurns s agenda answers j
    | runEnd => rfl
    | complete => rfl

end

/-! ## What the sequencer does alone -/

/-- From the outcome `o`, `n` sequencer steps lead to the outcome `o'`, BUSY being 1 before each of them. -/
inductive Leads : Nat → Outcome → Outcome → Prop
  | done (o : Outcome) : Leads 0 o o
  | step {n : Nat} {s : State} {o : Outcome} (hb : s.busy = true) (h : Leads n (sequencerStep s) o) :
      Leads (n + 1) (.next s) o

theorem Leads.trans {m n : Nat} {o₁ o₂ o₃ : Outcome} (h : Leads m o₁ o₂) (h' : Leads n o₂ o₃) :
    Leads (m + n) o₁ o₃ := by
  induction h with
  | done o => rwa [Nat.zero_add]
  | @step m s o hb _ ih => rw [Nat.add_right_comm]; exact .step hb (ih h')

theorem leads_one (hb : s.busy = true) (h : sequencerStep s = o) : Leads 1 (.next s) o := .step hb (h ▸ .done _)

/-- What leads to a next state is one. -/
theorem exists_next_of_leads {n : Nat} (h : Leads n o (.next t)) : ∃ s, o = .next s := by
  cases h with
  | done => exact ⟨t, rfl⟩
  | step => exact ⟨_, rfl⟩

/-- An idle sequencer leads nowhere else. -/
theorem leads_of_idle {n : Nat} (hb : s.busy = false) (h : Leads n (.next s) o) : n = 0 ∧ o = .next s := by
  cases h with
  | done => exact ⟨rfl, rfl⟩
  | step hb' => exact absurd (hb.symm.trans hb') (by decide)

/-! ## Runs -/

/-- Some number of steps runs from `s` to `t`. -/
def Reaches (s t : State) : Prop := ∃ n, Sys2Proof.core.run n s = .next t

theorem reaches_refl (s : State) : Reaches s s := ⟨0, rfl⟩

theorem reaches_step (h : step s = .next t) (h' : Reaches t u) : Reaches s u := by
  obtain ⟨n, hn⟩ := h'
  exact ⟨n + 1, run_succ_eq_next_iff.mpr ⟨t, h, hn⟩⟩

theorem Reaches.trans (h : Reaches s t) (h' : Reaches t u) : Reaches s u := by
  obtain ⟨n, hn⟩ := h
  induction n generalizing s with
  | zero => cases hn; exact h'
  | succ n ih =>
    obtain ⟨v, hv, hn⟩ := run_succ_eq_next_iff.mp hn
    exact reaches_step hv (ih hn)

/-! ## The wait poll (30_encoding.md R107) -/

theorem step_wait {rest : List Turn} (ha : s.agenda = .wait :: rest) : step s = waitStep { s with agenda := rest } := by
  simp only [step, ha]

/-- A poll of an idle block is `wait`'s last. -/
theorem reaches_poll_idle (rest : List Turn) (answers : List Answer) (hb : s.busy = false) :
    Reaches (s.atTurns (.wait :: rest) answers) (s.atTurns rest (answers ++ [.data s.statusWord])) := by
  refine reaches_step ?_ (reaches_refl _)
  rw [step_wait rfl]
  exact if_neg (by simp [State.atTurns, hb])

/-- A poll of a busy block gives the sequencer a step, and another poll follows. -/
theorem reaches_poll_busy (rest : List Turn) (answers : List Answer) (hb : s.busy = true)
    (hs : sequencerStep s = .next t) :
    Reaches (s.atTurns (.wait :: rest) answers) (t.atTurns (.wait :: rest) (answers ++ [.data s.statusWord])) := by
  have hpoll : step (s.atTurns (.wait :: rest) answers) =
      .next (s.atTurns (.sequencer :: .wait :: rest) (answers ++ [.data s.statusWord])) := by
    rw [step_wait rfl]
    exact if_pos hb
  have hmove : step (s.atTurns (.sequencer :: .wait :: rest) (answers ++ [.data s.statusWord])) =
      .next (t.atTurns (.wait :: rest) (answers ++ [.data s.statusWord])) :=
    (sequencerStep_atTurns s _ _).trans (congrArg (onTurns _ _) hs)
  exact reaches_step hpoll (reaches_step hmove (reaches_refl _))

/-- `wait` gives the sequencer the steps it takes until it is idle, and is then used up. -/
theorem reaches_wait {n : Nat} (rest : List Turn) (h : Leads n (.next s) (.next t)) (ht : t.busy = false)
    (answers : List Answer) : ∃ answers', Reaches (s.atTurns (.wait :: rest) answers) (t.atTurns rest answers') := by
  induction n generalizing s answers with
  | zero =>
    cases h
    exact ⟨_, reaches_poll_idle rest answers ht⟩
  | succ n ih =>
    cases h with
    | step hb h =>
      obtain ⟨u, hu⟩ := exists_next_of_leads h
      obtain ⟨answers', hrun⟩ := ih (hu ▸ h) (answers ++ [.data s.statusWord])
      exact ⟨answers', (reaches_poll_busy rest answers hb hu).trans hrun⟩

end Sys2Proof.Machine
end

section
/-! PROOF. Every running command ends (70_reset_and_hazards.md R291): each sequencer step has a next state and leaves
fewer steps to make. From it O50. -/

namespace Sys2Proof.Machine

variable {s t u : State}

/-! ## How many steps are left -/

/-- How many sequencer steps the running command has left at most: a decode step the longest RUN's, 5 for each
phase-step and its dwell, 4 for each de-energize, 1 for the end. -/
def stepsLeft (s : State) : Nat :=
  match s.cont with
  | none => 0
  | some .decode => 2621426
  | some (.advPhase j) => 5 * s.advLeft + 5 - j.val
  | some .advDwell => 5 * s.advLeft + 1
  | some (.deenergize j) => 5 - j.val
  | some (.runPhase j) => 5 * totalRemaining s.slots + 4 * activeCount s.slots + 1 - j.val
  | some .runDwell => 5 * totalRemaining s.slots + 4 * activeCount s.slots - 3
  | some (.runDeenergize j) => 5 * totalRemaining s.slots + 4 * activeCount s.slots + 5 - j.val
  | some .runEnd => 1
  | some .complete => 1

/-- The outcome is a next state whose command has fewer than `n` steps left. -/
def Descends (n : Nat) (o : Outcome) : Prop := ∃ t, o = .next t ∧ stepsLeft t < n

section
variable {n : Nat}

theorem descends_next (h : stepsLeft t < n) : Descends n (.next t) := ⟨t, rfl, h⟩

/-- A raise ends the command. -/
theorem descends_raise {code : ErrCode} {info : ErrInfo} {inRun : Bool} (hn : 0 < n) :
    Descends n (.next (raise code info inRun s)) := ⟨_, rfl, hn⟩

theorem descends_writePin {w : PatternWrite} {j : Fin 4} {next : State → Outcome} (hn : 0 < n)
    (hnext : ∀ p b, Descends n (next (acceptedWrite p b s))) : Descends n (writePin w j next s) := by
  obtain ⟨-, hgo⟩ | ⟨-, hgo⟩ := writePin_cases s w j next <;> rw [hgo]
  · exact hnext _ _
  · exact descends_raise hn

/-- RUN's loop goes to a phase-step while there is work, and then to the end. -/
theorem descends_runHead (hcount : u.runDone + totalRemaining u.slots = u.runTotal)
    (hcur : 0 < totalRemaining u.slots → u.runCur < u.slots.length)
    (hn : 5 * totalRemaining u.slots + 4 * activeCount u.slots + 1 < n) : Descends n (runHead u) := by
  obtain ⟨c, -, -, hgo⟩ | ⟨hwork, hnone, -⟩ | ⟨-, hgo⟩ := runHead_cases u
  · rw [hgo]
    exact descends_next hn
  · have hpos : 0 < totalRemaining u.slots := by omega
    obtain ⟨c, hc⟩ := seekActive_some u.slots u.runCur (hcur hpos) hpos
    simp [hc] at hnone
  · rw [hgo]
    exact descends_next (show 1 < n by omega)

end

/-- Inside its table an index has a pattern (40_phase_table_lut.md R120). -/
theorem pattern_eq_some {m : MotorId} {idx : Nat} (h : idx < s.tableLen m) :
    s.pattern m idx = some (s.patternAt m idx) := by
  unfold State.patternAt State.pattern
  unfold State.tableLen at h
  cases hm : (s.chan m).mode <;> rw [hm, tableLength] at h <;> simp [lookup, h]

/-- Replacing a slot changes the number of active ones by the difference. -/
theorem activeCount_set {slots : List Slot} {n : Nat} {old new : Slot} (h : slots[n]? = some old) :
    activeCount (slots.set n new) + (if 0 < old.remaining then 1 else 0) =
      activeCount slots + (if 0 < new.remaining then 1 else 0) := by
  induction slots generalizing n with
  | nil => simp at h
  | cons sl rest ih =>
    cases n with
    | zero =>
      cases h
      simp only [activeCount, List.set_cons_zero, List.countP_cons, decide_eq_true_eq]
      omega
    | succ n =>
      have := ih (n := n) (by simpa using h)
      simp only [activeCount, List.set_cons_succ, List.countP_cons] at this ⊢
      omega

theorem activeCount_startSlot (s : State) (slots : List Slot) :
    activeCount (slots.map s.startSlot) = activeCount slots :=
  List.countP_map ..

theorem val_succ_pin (j : Fin 4) (h : j ≠ 3) : (j + 1).val = j.val + 1 := by
  revert j
  decide

/-- Where ADVANCE goes with `advLeft` phase-steps to make, it has their steps and the de-energize's left. -/
theorem stepsLeft_advanceHead (s : State) : stepsLeft (continueWith (advanceHead s.advLeft) s) = 5 * s.advLeft + 5 := by
  unfold advanceHead
  split
  · rfl
  next h =>
    show 5 = 5 * s.advLeft + 5
    omega

theorem descends_execAdvance {m : MotorId} {d : Dir} {cnt : Int} (hcnt : cnt ≤ 32767) :
    Descends 2621426 (execAdvance m d cnt s) := by
  unfold execAdvance
  split
  · split
    · exact descends_raise (by decide)
    · refine descends_next ?_
      rw [stepsLeft_advanceHead { s with advIdx := startIndex d (s.tableLen m), advLeft := cnt.toNat }]
      dsimp only
      omega
  · exact descends_raise (by decide)

theorem descends_execDeenergize {m : MotorId} : Descends 2621426 (execDeenergize m s) := by
  unfold execDeenergize
  split
  · exact descends_next (show 5 < 2621426 by decide)
  · exact descends_raise (by decide)

theorem descends_complete {n : Nat} (hn : 1 < n) : Descends n (.next (continueWith .complete s)) := descends_next hn

theorem descends_execLoad {m : MotorId} {d : Dir} {cnt : Int} : Descends 2621426 (execLoad m d cnt s) := by
  unfold execLoad
  split
  · split
    · exact descends_raise (by decide)
    · split
      · exact descends_complete (by decide)
      · exact descends_raise (by decide)
  · exact descends_raise (by decide)

/-- The longest RUN: 16 slots of 32767 phase-steps. -/
theorem descends_execRun (h : StateInv s) : Descends 2621426 (execRun s) := by
  have htotal := totalRemaining_le s.slots fun sl hsl => (h.slots sl hsl).1
  have hactive : activeCount s.slots ≤ s.slots.length := List.countP_le_length
  have hlen := listLen_le_16 h
  unfold execRun
  split
  · exact descends_raise (by decide)
  · refine descends_runHead (by simp) (fun hpos => ?_) ?_
    · simp only [startRun_slots, startRun_runCur, totalRemaining_startSlot, List.length_map] at hpos ⊢
      omega
    · simp only [startRun_slots, totalRemaining_startSlot, activeCount_startSlot]
      omega

theorem descends_decodeStep (h : StateInv s) : Descends 2621426 (decodeStep s) := by
  unfold decodeStep
  split
  next i hd =>
    obtain rfl | rfl | rfl | rfl | rfl | rfl | rfl | ⟨r, rfl⟩ | ⟨r, rfl⟩ := decodeCommand_cases hd
    · exact descends_complete (by decide)
    · exact descends_execAdvance (countField_le s.cmdl)
    · exact descends_execDeenergize
    · exact descends_execLoad
    · exact descends_execRun h
    · exact descends_complete (by decide)
    · exact descends_complete (by decide)
    · exact descends_raise (by decide)
    · exact descends_raise (by decide)
  next => exact descends_raise (by decide)

theorem descends_advancePhaseStep {j : Fin 4} (h : AdvanceOk s) :
    Descends (5 * s.advLeft + 5 - j.val) (advancePhaseStep j s) := by
  simp only [advancePhaseStep, pattern_eq_some h.inTable]
  refine descends_writePin (by omega) fun p b => descends_next ?_
  split
  next hj =>
    subst hj
    show 5 * (acceptedWrite p b s).advLeft + 1 < _
    rw [acceptedWrite_advLeft]
    omega
  next hj =>
    show 5 * (acceptedWrite p b s).advLeft + 5 - (j + 1).val < _
    rw [acceptedWrite_advLeft, val_succ_pin j hj]
    omega

theorem descends_advanceDwellStep (h : AdvanceOk s) : Descends (5 * s.advLeft + 1) (advanceDwellStep s) := by
  have hleft := h.left
  refine descends_next ?_
  rw [stepsLeft_advanceHead { dwell s.cmdMotor s with
    advIdx := nextIndex s.advIdx s.cmdDir (s.tableLen s.cmdMotor), advLeft := s.advLeft - 1 }]
  dsimp only
  omega

theorem descends_deenergizeStep {j : Fin 4} : Descends (5 - j.val) (deenergizeStep j s) := by
  refine descends_writePin (by omega) fun p b => descends_next ?_
  split
  next hj =>
    subst hj
    exact Nat.one_lt_two
  next hj =>
    show 5 - (j + 1).val < _
    rw [val_succ_pin j hj]
    omega

theorem totalRemaining_pos {slots : List Slot} {n : Nat} {sl : Slot} (h : slots[n]? = some sl)
    (hpos : 0 < sl.remaining) : 0 < totalRemaining slots :=
  hpos.trans_le (List.single_le_sum (by simp) _ (List.mem_map_of_mem (List.mem_of_getElem? h)))

theorem descends_runPhaseStep {j : Fin 4} {sl : Slot} (h : RunOk s) (hsl : s.slots[s.runCur]? = some sl)
    (hpos : 0 < sl.remaining) :
    Descends (5 * totalRemaining s.slots + 4 * activeCount s.slots + 1 - j.val) (runPhaseStep j s) := by
  obtain ⟨-, hidx⟩ := h.ready sl (List.mem_of_getElem? hsl)
  have hwork := totalRemaining_pos hsl hpos
  simp only [runPhaseStep, hsl, pattern_eq_some hidx]
  refine descends_writePin (by omega) fun p b => descends_next ?_
  split
  next hj =>
    subst hj
    show 5 * totalRemaining (acceptedWrite p b s).slots + 4 * activeCount (acceptedWrite p b s).slots - 3 < _
    rw [acceptedWrite_slots]
    omega
  next hj =>
    show 5 * totalRemaining (acceptedWrite p b s).slots + 4 * activeCount (acceptedWrite p b s).slots + 1 -
      (j + 1).val < _
    rw [acceptedWrite_slots, val_succ_pin j hj]
    omega

/-- The cursor moves on inside the list. -/
theorem advanceCursor_lt {sl : Slot} (hsl : s.slots[s.runCur]? = some sl) :
    (advanceCursor s).runCur < (advanceCursor s).slots.length :=
  Nat.mod_lt _ (Nat.zero_lt_of_lt (List.getElem?_eq_some_iff.mp hsl).1)

theorem descends_runDwellStep {sl : Slot} (h : RunOk s) (hsl : s.slots[s.runCur]? = some sl) (hpos : 0 < sl.remaining) :
    Descends (5 * totalRemaining s.slots + 4 * activeCount s.slots - 3) (runDwellStep s) := by
  have htotal : totalRemaining (afterDwell sl s).slots + sl.remaining = totalRemaining s.slots + (sl.remaining - 1) :=
    totalRemaining_set s.slots s.runCur sl (s.steppedSlot sl) hsl
  have hactive : activeCount (afterDwell sl s).slots + (if 0 < sl.remaining then 1 else 0) =
      activeCount s.slots + (if 0 < (s.steppedSlot sl).remaining then 1 else 0) := activeCount_set hsl
  rw [if_pos hpos] at hactive
  rw [runDwellStep_eq hsl]
  split
  next hzero =>
    rw [if_neg (by omega)] at hactive
    refine descends_next ?_
    show 5 * totalRemaining (afterDwell sl s).slots + 4 * activeCount (afterDwell sl s).slots + 5 - 0 < _
    omega
  next hmore =>
    rw [if_pos (by omega)] at hactive
    refine descends_runHead (runOk_afterDwell h hsl hpos).counted
      (fun _ => advanceCursor_lt (getElem?_afterDwell hsl)) ?_
    rw [advanceCursor_slots]
    omega

theorem descends_runDeenergizeStep {j : Fin 4} {sl : Slot} (h : RunOk s) (hsl : s.slots[s.runCur]? = some sl) :
    Descends (5 * totalRemaining s.slots + 4 * activeCount s.slots + 5 - j.val) (runDeenergizeStep j s) := by
  simp only [runDeenergizeStep, hsl]
  refine descends_writePin (by omega) fun p b => ?_
  split
  next hj =>
    subst hj
    refine descends_runHead (by simpa using h.counted) (fun _ => advanceCursor_lt (sl := sl) (by simpa using hsl)) ?_
    rw [advanceCursor_slots, acceptedWrite_slots]
    show _ < _ + 5 - 3
    omega
  next hj =>
    refine descends_next ?_
    show 5 * totalRemaining (acceptedWrite p b s).slots + 4 * activeCount (acceptedWrite p b s).slots + 5 -
      (j + 1).val < _
    rw [acceptedWrite_slots, val_succ_pin j hj]
    omega

/-- While a command runs, every sequencer step has a next state and leaves the command fewer steps. -/
theorem descends_sequencerStep (h : StateInv s) (hb : s.busy = true) : Descends (stepsLeft s) (sequencerStep s) := by
  have hcont := h.cont
  rw [h.busy] at hb
  unfold sequencerStep stepsLeft
  unfold ContOk at hcont
  cases hk : s.cont with
  | none => simp [hk] at hb
  | some c =>
    rw [hk] at hcont
    cases c with
    | decode => exact descends_decodeStep h
    | advPhase j => exact descends_advancePhaseStep hcont
    | advDwell => exact descends_advanceDwellStep hcont
    | deenergize j => exact descends_deenergizeStep
    | runPhase j => obtain ⟨hr, sl, hsl, hpos⟩ := hcont; exact descends_runPhaseStep hr hsl hpos
    | runDwell => obtain ⟨hr, sl, hsl, hpos⟩ := hcont; exact descends_runDwellStep hr hsl hpos
    | runDeenergize j => obtain ⟨hr, sl, hsl, -⟩ := hcont; exact descends_runDeenergizeStep hr hsl
    | runEnd => exact descends_next Nat.zero_lt_one
    | complete => exact descends_next Nat.zero_lt_one

/-- Every running command ends, after no more steps than it has left at most. -/
theorem exists_leads_idle (h : StateInv s) :
    ∃ n t, n ≤ stepsLeft s ∧ Leads n (.next s) (.next t) ∧ t.busy = false := by
  induction hn : stepsLeft s using Nat.strong_induction_on generalizing s with
  | h m ih =>
    subst hn
    cases hb : s.busy with
    | false => exact ⟨0, s, Nat.zero_le _, .done _, hb⟩
    | true =>
      obtain ⟨u, hu, hlt⟩ := descends_sequencerStep h hb
      obtain ⟨n, t, hn, hrun, ht⟩ := ih _ hlt (sound_sequencerStep h u hu) rfl
      exact ⟨n + 1, t, Nat.lt_of_le_of_lt hn hlt, .step hb (hu ▸ hrun), ht⟩

/-- Settles O50: the running command ends, and the poll after its last step finds BUSY = 0. -/
theorem waitTerminates : Obligations.WaitTerminates := by
  intro s rest h ha
  obtain ⟨k, t, -, hleads, ht⟩ := exists_leads_idle h
  obtain ⟨answers, n, hn⟩ := reaches_wait rest hleads ht s.answers
  have hs : s.atTurns (.wait :: rest) s.answers = s := by rw [← ha]; rfl
  exact ⟨n, t.atTurns rest answers, hs ▸ hn, ht, rfl⟩

end Sys2Proof.Machine
end

section
/-! PROOF. What events do to the state, the indexes of a traversal, and the four writes of a pattern. -/

namespace Sys2Proof.Machine

variable {s t u : State}

/-! ## A list of events happens -/

/-- The state in which the events have been made: recorded, the pins following them, the host's answers drawn. -/
def afterEvents (evs : List Event) (s : State) : State :=
  { s with
    trace := s.trace ++ evs, level := playEvents s.level evs, draws := drawsAfter s (pinsWritten evs).length }

@[simp] theorem drawsAfter_zero (s : State) : drawsAfter s 0 = s.draws := by
  unfold drawsAfter
  split <;> rfl

theorem drawsAfter_afterEvents (evs : List Event) (s : State) (n : Nat) :
    drawsAfter (afterEvents evs s) n = drawsAfter s ((pinsWritten evs).length + n) := by
  cases hm : s.cfg.hostModel <;> simp [drawsAfter, afterEvents, hm, Nat.add_assoc]

theorem pinsWritten_append (evs evs' : List Event) : pinsWritten (evs ++ evs') = pinsWritten evs ++ pinsWritten evs' :=
  List.filterMap_append

@[simp] theorem afterEvents_nil (s : State) : afterEvents [] s = s := by
  simp [afterEvents, playEvents, pinsWritten]

theorem afterEvents_append (evs evs' : List Event) (s : State) :
    afterEvents (evs ++ evs') s = afterEvents evs' (afterEvents evs s) := by
  have hdraws : drawsAfter s (pinsWritten (evs ++ evs')).length =
      drawsAfter (afterEvents evs s) (pinsWritten evs').length := by
    rw [drawsAfter_afterEvents, pinsWritten_append, List.length_append]
  unfold afterEvents at hdraws ⊢
  simp [hdraws, playEvents]

/-- An accepted pin write is its event. -/
theorem acceptedWrite_eq_afterEvents (p : PinId) (b : Bool) (s : State) :
    acceptedWrite p b s = afterEvents [.pinWrite p b] s := by
  have hdraws : (drawAnswer s).draws = drawsAfter s 1 := by
    cases hm : s.cfg.hostModel <;> simp [drawAnswer, drawsAfter, hm]
  unfold acceptedWrite
  rw [drawAnswer_eq_setDraws, hdraws]
  rfl

/-- A dwell is its event. -/
theorem dwell_eq_afterEvents (m : MotorId) (s : State) : dwell m s = afterEvents [.dwell m (s.chan m).delay] s := by
  simp [dwell, afterEvents, playEvents, playEvent, pinsWritten]

/-- Accepting a list of writes is accepting its first part and then the rest. -/
theorem allAccepted_append {evs evs' : List Event} :
    AllAccepted s (evs ++ evs') ↔ AllAccepted s evs ∧ AllAccepted (afterEvents evs s) evs' := by
  have hcfg : (afterEvents evs s).cfg = s.cfg := rfl
  have hout : ∀ p, (afterEvents evs s).outEnabled p = s.outEnabled p := fun _ => rfl
  unfold AllAccepted
  rw [pinsWritten_append, hcfg]
  cases hm : s.cfg.hostModel with
  | enableBit => simp only [hout, List.mem_append, or_imp, forall_and]
  | oracle =>
    have hdraws : (afterEvents evs s).draws = s.draws + (pinsWritten evs).length := by
      simp only [afterEvents, drawsAfter, hm]
    simp only [hdraws, List.length_append, Nat.add_assoc]
    refine ⟨fun h => ⟨fun k hk => h k (by omega), fun k hk => h _ (by omega)⟩, fun ⟨h, h'⟩ k hk => ?_⟩
    obtain hlt | hge := Nat.lt_or_ge k (pinsWritten evs).length
    · exact h k hlt
    · have := h' (k - (pinsWritten evs).length) (by omega)
      rwa [Nat.add_sub_cancel' hge] at this

/-- The host accepts the first write of a list it accepts. -/
theorem hostAccepts_of_allAccepted {p : PinId} {b : Bool} {evs : List Event}
    (h : AllAccepted s (.pinWrite p b :: evs)) : hostAccepts s p = true := by
  unfold AllAccepted at h
  unfold hostAccepts
  cases hm : s.cfg.hostModel with
  | enableBit => rw [hm] at h; exact h p List.mem_cons_self
  | oracle => rw [hm] at h; exact h 0 (Nat.zero_lt_succ _)

/-! ## The traversal (41_pwm_sequencer.md R151) -/

theorem indexAt_zero (d : Dir) (len : Nat) : indexAt d len 0 = startIndex d len := by
  cases d <;> simp [indexAt, startIndex]

theorem indexAt_lt (d : Dir) {len : Nat} (h : 0 < len) (j : Nat) : indexAt d len j < len := by
  cases d with
  | forward => exact Nat.mod_lt _ h
  | backward => exact (Nat.sub_le _ _).trans_lt (Nat.sub_one_lt_of_lt h)

theorem indexAt_succ (d : Dir) {len : Nat} (h : 0 < len) (j : Nat) :
    indexAt d len (j + 1) = nextIndex (indexAt d len j) d len := by
  have hj := Nat.mod_lt j h
  cases d with
  | forward => exact (Nat.mod_add_mod ..).symm
  | backward =>
    show len - 1 - (j + 1) % len = (len - 1 - j % len + len - 1) % len
    rw [← Nat.mod_add_mod j len 1]
    obtain hwrap | hin : j % len + 1 = len ∨ j % len + 1 < len := by omega
    · have hzero : len - 1 - j % len + len - 1 = len - 1 := by omega
      rw [hwrap, hzero, Nat.mod_self, Nat.mod_eq_of_lt (by omega), Nat.sub_zero]
    · have hback : len - 1 - j % len + len - 1 = len - 1 - (j % len + 1) + len := by omega
      rw [Nat.mod_eq_of_lt hin, hback, Nat.add_mod_right,
        Nat.mod_eq_of_lt (a := len - 1 - (j % len + 1)) (by omega)]

/-! ## The four writes of a pattern (41_pwm_sequencer.md R142) -/

/-- A step that writes a pin the host accepts makes the write's event. -/
theorem leads_write {w : PatternWrite} {j : Fin 4} {next : State → Outcome} (hb : s.busy = true)
    (hstep : sequencerStep s = writePin w j next s) (hacc : hostAccepts s ((s.chan w.motor).pin j) = true) :
    Leads 1 (.next s) (next (afterEvents [.pinWrite ((s.chan w.motor).pin j) (w.pat.getLsbD j.val)] s)) := by
  refine leads_one hb ?_
  rw [hstep, writePin, if_pos hacc, acceptedWrite_eq_afterEvents]

/-- A command that stands at `k j` writes pin `j` and goes on with `next j`; the first three lead to the next pin, so
the four make the pattern's events. -/
theorem leads_pattern (k : Fin 4 → Cont) (w : PatternWrite) (next : Fin 4 → State → Outcome) (hb : s.busy = true)
    (hstep : ∀ (j : Fin 4) (evs : List Event), sequencerStep (continueWith (k j) (afterEvents evs s)) =
      writePin w j (next j) (continueWith (k j) (afterEvents evs s)))
    (hnext : ∀ (j : Fin 4) (t : State), j ≠ 3 → next j t = .next (continueWith (k (j + 1)) t))
    (hacc : AllAccepted s (patternEvents (s.chan w.motor) w.pat)) :
    Leads 4 (.next (continueWith (k 0) s))
      (next 3 (continueWith (k 3) (afterEvents (patternEvents (s.chan w.motor) w.pat) s))) := by
  have hone : ∀ (j : Fin 4) (evs rest : List Event),
      patternEvents (s.chan w.motor) w.pat =
        evs ++ .pinWrite ((s.chan w.motor).pin j) (w.pat.getLsbD j.val) :: rest →
      Leads 1 (.next (continueWith (k j) (afterEvents evs s))) (next j (continueWith (k j)
        (afterEvents (evs ++ [.pinWrite ((s.chan w.motor).pin j) (w.pat.getLsbD j.val)]) s))) := by
    intro j evs rest hsplit
    rw [hsplit, allAccepted_append] at hacc
    rw [afterEvents_append]
    exact leads_write (s := continueWith (k j) (afterEvents evs s)) hb (hstep j evs) (hostAccepts_of_allAccepted hacc.2)
  have h0 := hone 0 [] _ rfl
  have h1 := hone 1 [_] _ rfl
  have h2 := hone 2 [_, _] _ rfl
  have h3 := hone 3 [_, _, _] _ rfl
  rw [hnext _ _ (by decide)] at h0 h1 h2
  rw [afterEvents_nil] at h0
  exact ((h0.trans h1).trans h2).trans h3

end Sys2Proof.Machine
end

section
/-! PROOF. A RUN from the head of its loop to its end: each visit makes its events, a round visits every slot once, and
the rounds make the closed form's events (42_step_scheduler.md R174 to R180). -/

namespace Sys2Proof.Machine

variable {s t u : State}

/-! ## The head of RUN's loop (42_step_scheduler.md R174, R176) -/

theorem runHead_continueWith (k : Cont) (s : State) : runHead (continueWith k s) = runHead s := rfl

/-- Looking at more slots finds the same one. -/
theorem seekActive_succ {slots : List Slot} {k c n : Nat} (h : seekActive slots k c = some n) :
    seekActive slots (k + 1) c = some n := by
  induction k generalizing c with
  | zero => simp [seekActive] at h
  | succ k ih =>
    unfold seekActive at h ⊢
    split at h
    · cases h
    · split at h
      next hpos => simpa [hpos] using h
      next hpos => simpa [hpos] using ih h

theorem seekActive_here {slots : List Slot} {c : Nat} {sl : Slot} (h : slots[c]? = some sl) (hpos : 0 < sl.remaining)
    (k : Nat) : seekActive slots (k + 1) c = some c := by
  rw [seekActive, h]
  exact if_pos hpos

theorem seekActive_skip {slots : List Slot} {c : Nat} {sl : Slot} (h : slots[c]? = some sl) (hzero : sl.remaining = 0)
    (k : Nat) : seekActive slots (k + 1) c = seekActive slots k ((c + 1) % slots.length) := by
  rw [seekActive, h]
  exact if_neg (by omega)

/-- A slot without work is not where the cursor stops, while there is work elsewhere. -/
theorem seekActive_next {slots : List Slot} {c : Nat} {sl : Slot} (h : slots[c]? = some sl) (hzero : sl.remaining = 0)
    (hwork : 0 < totalRemaining slots) :
    seekActive slots slots.length ((c + 1) % slots.length) = seekActive slots slots.length c := by
  have hlt := (List.getElem?_eq_some_iff.mp h).1
  obtain ⟨k, hk⟩ : ∃ k, slots.length = k + 1 := ⟨slots.length - 1, by omega⟩
  obtain ⟨n, hn⟩ := seekActive_some slots c hlt hwork
  have hskip : seekActive slots k ((c + 1) % slots.length) = some n := by
    rw [← seekActive_skip h hzero, ← hk, hn]
  have hfound := seekActive_succ hskip
  rw [← hk] at hfound
  rw [hfound, hn]

/-- With work left, a visit of the slot at the cursor that has some begins. -/
theorem runHead_active {sl : Slot} (hsl : s.slots[s.runCur]? = some sl) (hpos : 0 < sl.remaining)
    (hcount : s.runDone + totalRemaining s.slots = s.runTotal) :
    runHead s = .next (continueWith (.runPhase 0) s) := by
  have hwork := totalRemaining_pos hsl hpos
  have hlt := (List.getElem?_eq_some_iff.mp hsl).1
  obtain ⟨k, hk⟩ : ∃ k, s.slots.length = k + 1 := ⟨s.slots.length - 1, by omega⟩
  rw [runHead, if_pos (by omega), hk, seekActive_here hsl hpos]

/-- A slot without work is skipped while there is work elsewhere. -/
theorem runHead_skip {sl : Slot} (hsl : s.slots[s.runCur]? = some sl) (hzero : sl.remaining = 0)
    (hcount : s.runDone + totalRemaining s.slots = s.runTotal) (hwork : s.runDone < s.runTotal) :
    runHead s = runHead (advanceCursor s) := by
  rw [runHead, runHead, if_pos hwork, if_pos (show (advanceCursor s).runDone < (advanceCursor s).runTotal from hwork),
    ← seekActive_next hsl hzero (by omega)]
  rfl

/-- With no work left the loop ends. -/
theorem runHead_end (hdone : s.runTotal ≤ s.runDone) : runHead s = .next (continueWith .runEnd s) :=
  if_neg (Nat.not_lt.mpr hdone)

/-! ## One visit (42_step_scheduler.md R174, R179) -/

/-- RUN's updates for a phase-step of the slot at the cursor, without its events. -/
def stepSlot (sl : Slot) (s : State) : State :=
  { s with slots := s.slots.set s.runCur (s.steppedSlot sl), runDone := s.runDone + 1 }

theorem afterDwell_eq_afterEvents (sl : Slot) (s : State) :
    afterDwell sl s = afterEvents [.dwell sl.motor (s.chan sl.motor).delay] (stepSlot sl s) := by
  unfold afterDwell
  rw [dwell_eq_afterEvents]
  rfl

theorem continueWith_continueWith (k k' : Cont) (s : State) :
    continueWith k (continueWith k' s) = continueWith k s := rfl

theorem afterEvents_continueWith (evs : List Event) (k : Cont) (s : State) :
    afterEvents evs (continueWith k s) = continueWith k (afterEvents evs s) := rfl

theorem advanceCursor_continueWith (k : Cont) (s : State) :
    advanceCursor (continueWith k s) = continueWith k (advanceCursor s) := rfl

theorem stepSlot_continueWith (sl : Slot) (k : Cont) (s : State) :
    stepSlot sl (continueWith k s) = continueWith k (stepSlot sl s) := rfl

theorem stepSlot_afterEvents (sl : Slot) (evs : List Event) (s : State) :
    stepSlot sl (afterEvents evs s) = afterEvents evs (stepSlot sl s) := rfl

theorem getElem?_stepSlot {sl : Slot} (hsl : s.slots[s.runCur]? = some sl) :
    (stepSlot sl s).slots[(stepSlot sl s).runCur]? = some (s.steppedSlot sl) :=
  List.getElem?_set_self (List.getElem?_eq_some_iff.mp hsl).1

theorem runPhaseStep_eq {sl : Slot} (hsl : s.slots[s.runCur]? = some sl) (hidx : sl.idx < s.tableLen sl.motor)
    (j : Fin 4) : runPhaseStep j s =
      writePin { motor := sl.motor, pat := s.patternAt sl.motor sl.idx, deen := false, slot := some s.runCur } j
        (fun t => .next (continueWith (if j = 3 then .runDwell else .runPhase (j + 1)) t)) s := by
  simp only [runPhaseStep, hsl, pattern_eq_some hidx]

theorem runDeenergizeStep_eq {sl : Slot} (hsl : s.slots[s.runCur]? = some sl) (j : Fin 4) : runDeenergizeStep j s =
      writePin { motor := sl.motor, pat := 0#4, deen := true, slot := some s.runCur } j
        (fun t => if j = 3 then runHead (advanceCursor t) else .next (continueWith (.runDeenergize (j + 1)) t)) s := by
  simp only [runDeenergizeStep, hsl]

/-- The writes of the slot's phase pattern lead to its dwell. -/
theorem leads_runPhase {sl : Slot} (hb : s.busy = true) (hsl : s.slots[s.runCur]? = some sl)
    (hidx : sl.idx < s.tableLen sl.motor)
    (hacc : AllAccepted s (patternEvents (s.chan sl.motor) (s.patternAt sl.motor sl.idx))) :
    Leads 4 (.next (continueWith (.runPhase 0) s)) (.next (continueWith .runDwell
      (afterEvents (patternEvents (s.chan sl.motor) (s.patternAt sl.motor sl.idx)) s))) :=
  leads_pattern .runPhase
    { motor := sl.motor, pat := s.patternAt sl.motor sl.idx, deen := false, slot := some s.runCur }
    (fun j t => .next (continueWith (if j = 3 then .runDwell else .runPhase (j + 1)) t)) hb
    (fun j evs => runPhaseStep_eq (s := continueWith (.runPhase j) (afterEvents evs s)) hsl hidx j)
    (fun j t hj => by rw [if_neg hj]) hacc

/-- The writes of the slot's de-energize lead to the next visit. -/
theorem leads_runDeenergize {sl : Slot} (hb : s.busy = true) (hsl : s.slots[s.runCur]? = some sl)
    (hacc : AllAccepted s (deenergizeEvents s sl.motor)) :
    Leads 4 (.next (continueWith (.runDeenergize 0) s))
      (runHead (advanceCursor (afterEvents (deenergizeEvents s sl.motor) s))) :=
  leads_pattern .runDeenergize { motor := sl.motor, pat := 0#4, deen := true, slot := some s.runCur }
    (fun j t => if j = 3 then runHead (advanceCursor t) else .next (continueWith (.runDeenergize (j + 1)) t)) hb
    (fun j evs => runDeenergizeStep_eq (s := continueWith (.runDeenergize j) (afterEvents evs s)) hsl j)
    (fun j t hj => by rw [if_neg hj]) hacc

/-- The events of one visit of a slot that has work, from the slot as it stands. -/
def visitOf (s : State) (sl : Slot) : List Event :=
  phaseEvents s sl.motor sl.idx ++ if sl.remaining = 1 then deenergizeEvents s sl.motor else []

/-- The phase-step of a visit: the writes and the dwell, which leads to the slot's de-energize if it was its last. -/
theorem leads_runDwell {sl : Slot} (hb : s.busy = true) (hsl : s.slots[s.runCur]? = some sl)
    (hidx : sl.idx < s.tableLen sl.motor) (hacc : AllAccepted s (phaseEvents s sl.motor sl.idx)) :
    Leads 5 (.next (continueWith (.runPhase 0) s))
      (if (s.steppedSlot sl).remaining = 0 then
        .next (continueWith (.runDeenergize 0) (afterEvents (phaseEvents s sl.motor sl.idx) (stepSlot sl s)))
      else runHead (advanceCursor (afterEvents (phaseEvents s sl.motor sl.idx) (stepSlot sl s)))) := by
  obtain ⟨hpat, -⟩ := allAccepted_append.mp hacc
  refine (leads_runPhase hb hsl hidx hpat).trans (leads_one hb ?_)
  refine (runDwellStep_eq (s := continueWith .runDwell (afterEvents _ s)) hsl).trans ?_
  rw [afterDwell_eq_afterEvents, phaseEvents, afterEvents_append, stepSlot_continueWith, afterEvents_continueWith,
    continueWith_continueWith, advanceCursor_continueWith, runHead_continueWith, stepSlot_afterEvents]
  exact if_congr Iff.rfl rfl rfl

/-- A visit makes its phase-step's events, and after the slot's last one the de-energize's, and leads to the next
visit. -/
theorem leads_visit {sl : Slot} (hb : s.busy = true) (hsl : s.slots[s.runCur]? = some sl) (hpos : 0 < sl.remaining)
    (hidx : sl.idx < s.tableLen sl.motor) (hcount : s.runDone + totalRemaining s.slots = s.runTotal)
    (hacc : AllAccepted s (visitOf s sl)) :
    Leads (visitOf s sl).length (runHead s) (runHead (advanceCursor (afterEvents (visitOf s sl) (stepSlot sl s)))) := by
  obtain ⟨hphase, hdeen⟩ := allAccepted_append.mp hacc
  have hdwell := leads_runDwell hb hsl hidx hphase
  have hleft : (s.steppedSlot sl).remaining = sl.remaining - 1 := rfl
  rw [runHead_active hsl hpos hcount]
  unfold visitOf
  split
  next hlast =>
    rw [if_pos hlast] at hdeen
    rw [if_pos (by omega)] at hdwell
    rw [afterEvents_append]
    exact hdwell.trans (leads_runDeenergize (s := afterEvents _ (stepSlot sl s)) hb (getElem?_stepSlot hsl) hdeen)
  next hmore =>
    rw [if_neg (by omega)] at hdwell
    rwa [List.append_nil]

/-! ## The rounds (42_step_scheduler.md R180) -/

/-- A slot after `r` rounds: as many phase-steps as it had work for have been made. -/
def State.visited (s : State) (r : Nat) (sl : Slot) : Slot :=
  { sl with remaining := sl.remaining - r, idx := indexAt sl.dir (s.tableLen sl.motor) (min r sl.remaining) }

theorem startSlot_eq_visited (s : State) (sl : Slot) : s.startSlot sl = s.visited 0 sl := by
  simp [State.startSlot, State.visited, indexAt_zero]

/-- A slot with work steps from one round to the next. -/
theorem steppedSlot_visited {r : Nat} {sl : Slot} (h : r < sl.remaining) :
    s.steppedSlot (s.visited r sl) = s.visited (r + 1) sl := by
  have hidx := indexAt_succ sl.dir (tableLen_pos s sl.motor) r
  simp only [State.steppedSlot, State.visited, Nat.min_eq_left h.le, Nat.min_eq_left (Nat.succ_le_of_lt h), hidx,
    Nat.sub_sub]

/-- A slot without work stays as it is. -/
theorem visited_succ_of_done {r : Nat} {sl : Slot} (h : sl.remaining ≤ r) : s.visited (r + 1) sl = s.visited r sl := by
  simp only [State.visited, Nat.min_eq_right h, Nat.min_eq_right (h.trans (Nat.le_succ r)), Nat.sub_eq_zero_of_le h,
    Nat.sub_eq_zero_of_le (h.trans (Nat.le_succ r))]

/-- A visit's events are those the closed form gives the slot in this round. -/
theorem visitOf_visited {r : Nat} {sl : Slot} (h : r < sl.remaining) :
    visitOf s (s.visited r sl) = visitEvents s sl r := by
  have hlast : sl.remaining - r = 1 ↔ sl.remaining = r + 1 := by omega
  simp only [visitOf, visitEvents, if_pos h, State.visited, Nat.min_eq_left h.le, hlast]

theorem visitEvents_of_done {r : Nat} {sl : Slot} (h : sl.remaining ≤ r) : visitEvents s sl r = [] :=
  if_neg (Nat.not_lt.mpr h)

/-- `u` stands at the head of RUN's loop, the list being `slots` and the cursor `c`, with the channels of `s`. -/
structure AtHead (s : State) (slots : List Slot) (c : Nat) (u : State) : Prop where
  busy : u.busy = true
  cfg : u.cfg = s.cfg
  chans : u.chans = s.chans
  slots : u.slots = slots
  cursor : u.runCur = c
  counted : u.runDone + totalRemaining u.slots = u.runTotal

/-- From the head of the loop the run makes the events `evs` and ends, having changed nothing else but the hidden
counters. -/
def Finishes (u : State) (evs : List Event) : Prop :=
  ∃ k : Counters, Leads (evs.length + 1) (runHead u) (.next ((complete (clearList (afterEvents evs u))).withCounters k))

theorem leads_runEnd (hb : s.busy = true) : Leads 1 (.next (continueWith .runEnd s)) (.next (complete (clearList s))) :=
  leads_one hb rfl

/-- With no work left the run ends at once. -/
theorem finishes_nil (hb : u.busy = true) (hdone : u.runTotal ≤ u.runDone) : Finishes u [] := by
  refine ⟨u.counters, ?_⟩
  rw [runHead_end hdone, afterEvents_nil]
  exact leads_runEnd hb

/-- A run with no work left makes no event. -/
theorem eq_nil_of_finishes {evs : List Event} (hdone : u.runTotal ≤ u.runDone) (h : Finishes u evs) : evs = [] := by
  obtain ⟨k, hleads⟩ := h
  rw [runHead_end hdone] at hleads
  cases hleads with
  | step _ hrest => exact List.length_eq_zero_iff.mp (leads_of_idle (s := complete (clearList _)) rfl hrest).1

/-- A slot without work is passed over, whether or not there is work elsewhere. -/
theorem finishes_skip {sl : Slot} {evs : List Event} (hb : u.busy = true) (hsl : u.slots[u.runCur]? = some sl)
    (hzero : sl.remaining = 0) (hcount : u.runDone + totalRemaining u.slots = u.runTotal)
    (h : Finishes (advanceCursor u) evs) : Finishes u evs := by
  obtain hwork | hdone := Nat.lt_or_ge u.runDone u.runTotal
  · obtain ⟨k, hleads⟩ := h
    exact ⟨k, by rw [runHead_skip hsl hzero hcount hwork]; exact hleads⟩
  · rw [eq_nil_of_finishes (u := advanceCursor u) hdone h]
    exact finishes_nil hb hdone

/-- A slot with work is visited. -/
theorem finishes_visit {sl : Slot} {evs : List Event} (hb : u.busy = true) (hsl : u.slots[u.runCur]? = some sl)
    (hpos : 0 < sl.remaining) (hidx : sl.idx < u.tableLen sl.motor)
    (hcount : u.runDone + totalRemaining u.slots = u.runTotal) (hacc : AllAccepted u (visitOf u sl))
    (h : Finishes (advanceCursor (afterEvents (visitOf u sl) (stepSlot sl u))) evs) :
    Finishes u (visitOf u sl ++ evs) := by
  obtain ⟨k, hleads⟩ := h
  refine ⟨k, ?_⟩
  rw [List.length_append, Nat.add_assoc, afterEvents_append]
  exact (leads_visit hb hsl hpos hidx hcount hacc).trans hleads

/-! ### The visits of a round, one after the other -/

theorem visitOf_congr (hcfg : u.cfg = s.cfg) (hchans : u.chans = s.chans) (sl : Slot) :
    visitOf u sl = visitOf s sl := by
  simp only [visitOf, phaseEvents, deenergizeEvents, State.patternAt, chan_congr s u hchans,
    pattern_congr s u hcfg hchans]

theorem steppedSlot_congr (hchans : u.chans = s.chans) (sl : Slot) : u.steppedSlot sl = s.steppedSlot sl := by
  simp only [State.steppedSlot, tableLen_congr s u hchans]

/-- After a visit the next slot is at the cursor, and the visited one has one phase-step less to make. -/
theorem atHead_visited {pre rest : List Slot} {sl : Slot} {r : Nat} {evs : List Event}
    (h : AtHead s (pre ++ s.visited r sl :: rest) pre.length u) (hr : r < sl.remaining) :
    AtHead s (pre ++ s.visited (r + 1) sl :: rest) ((pre.length + 1) % (pre.length + (rest.length + 1)))
      (advanceCursor (afterEvents evs (stepSlot (s.visited r sl) u))) := by
  have hsl : u.slots[u.runCur]? = some (s.visited r sl) := by simp [h.slots, h.cursor]
  have hstep : u.steppedSlot (s.visited r sl) = s.visited (r + 1) sl := by
    rw [steppedSlot_congr h.chans, steppedSlot_visited hr]
  have hslots : u.slots.set u.runCur (u.steppedSlot (s.visited r sl)) = pre ++ s.visited (r + 1) sl :: rest := by
    simp [hstep, h.slots, h.cursor]
  refine ⟨h.busy, h.cfg, h.chans, hslots, ?_, ?_⟩
  · show (u.runCur + 1) % (u.slots.set u.runCur _).length = _
    simp [h.slots, h.cursor]
  · have hset := totalRemaining_set u.slots u.runCur _ (u.steppedSlot (s.visited r sl)) hsl
    have hleft : (u.steppedSlot (s.visited r sl)).remaining = sl.remaining - r - 1 := rfl
    have hwork : (s.visited r sl).remaining = sl.remaining - r := rfl
    have hcount := h.counted
    show u.runDone + 1 + totalRemaining (u.slots.set u.runCur _) = u.runTotal
    omega

/-- A slot without work stays, and the next one is at the cursor. -/
theorem atHead_skipped {pre rest : List Slot} {sl : Slot} {r : Nat}
    (h : AtHead s (pre ++ s.visited r sl :: rest) pre.length u) (hr : sl.remaining ≤ r) :
    AtHead s (pre ++ s.visited (r + 1) sl :: rest) ((pre.length + 1) % (pre.length + (rest.length + 1)))
      (advanceCursor u) := by
  refine ⟨h.busy, h.cfg, h.chans, ?_, ?_, h.counted⟩
  · rw [visited_succ_of_done hr]
    exact h.slots
  · simp [h.slots, h.cursor]

theorem finishes_slot {pre rest : List Slot} {sl : Slot} {r : Nat} {evs : List Event}
    (h : AtHead s (pre ++ s.visited r sl :: rest) pre.length u) (hacc : AllAccepted u (visitEvents s sl r ++ evs))
    (hnext : ∀ v,
      AtHead s (pre ++ s.visited (r + 1) sl :: rest) ((pre.length + 1) % (pre.length + (rest.length + 1))) v →
      AllAccepted v evs → Finishes v evs) :
    Finishes u (visitEvents s sl r ++ evs) := by
  have hsl : u.slots[u.runCur]? = some (s.visited r sl) := by simp [h.slots, h.cursor]
  obtain hr | hr := Nat.lt_or_ge r sl.remaining
  · have hev : visitEvents s sl r = visitOf u (s.visited r sl) := by
      rw [visitOf_congr h.cfg h.chans, visitOf_visited hr]
    have hpos : 0 < (s.visited r sl).remaining := Nat.sub_pos_of_lt hr
    have hidx : (s.visited r sl).idx < u.tableLen (s.visited r sl).motor := by
      rw [tableLen_congr s u h.chans]
      exact indexAt_lt _ (tableLen_pos s _) _
    rw [hev] at hacc ⊢
    obtain ⟨hvisit, hrest⟩ := allAccepted_append.mp hacc
    exact finishes_visit h.busy hsl hpos hidx h.counted hvisit (hnext _ (atHead_visited h hr) hrest)
  · rw [visitEvents_of_done hr, List.nil_append] at hacc ⊢
    exact finishes_skip h.busy hsl (Nat.sub_eq_zero_of_le hr) h.counted (hnext _ (atHead_skipped h hr) hacc)

/-- The slots of `post` are still to be visited in round `r`, those of `pre` have been; `evs` follow the round. -/
theorem finishes_round {pre post : List Slot} {r : Nat} {evs : List Event}
    (h : AtHead s (pre ++ post.map (s.visited r)) (pre.length % (pre.length + post.length)) u)
    (hacc : AllAccepted u (post.flatMap (visitEvents s · r) ++ evs))
    (hnext : ∀ v, AtHead s (pre ++ post.map (s.visited (r + 1))) 0 v → AllAccepted v evs → Finishes v evs) :
    Finishes u (post.flatMap (visitEvents s · r) ++ evs) := by
  induction post generalizing pre u with
  | nil => exact hnext u (by simpa using h) hacc
  | cons sl rest ih =>
    rw [List.length_cons, Nat.mod_eq_of_lt (by omega)] at h
    rw [List.flatMap_cons, List.append_assoc] at hacc ⊢
    refine finishes_slot h hacc fun v hv hrest => ?_
    refine ih (pre := pre ++ [s.visited (r + 1) sl]) ?_ hrest fun w hw => hnext w (by simpa using hw)
    simpa [Nat.add_assoc, Nat.add_comm 1] using hv

theorem remaining_le_roundCount {slots : List Slot} {sl : Slot} (h : sl ∈ slots) : sl.remaining ≤ roundCount slots := by
  induction slots with
  | nil => cases h
  | cons x rest ih =>
    obtain rfl | h := List.mem_cons.mp h
    · exact Nat.le_max_left ..
    · exact (ih h).trans (Nat.le_max_right ..)

/-- After the last round no slot has work. -/
theorem totalRemaining_visited {r : Nat} {slots : List Slot} (h : ∀ sl ∈ slots, sl.remaining ≤ r) :
    totalRemaining (slots.map (s.visited r)) = 0 := by
  refine List.sum_eq_zero fun n hn => ?_
  obtain ⟨v, hv, rfl⟩ := List.mem_map.mp hn
  obtain ⟨sl, hsl, rfl⟩ := List.mem_map.mp hv
  exact Nat.sub_eq_zero_of_le (h sl hsl)

/-- From the start of round `r` on, `n` rounds finish the list. -/
theorem finishes_rounds {n r : Nat} (h : AtHead s (s.slots.map (s.visited r)) 0 u)
    (hall : ∀ sl ∈ s.slots, sl.remaining ≤ r + n)
    (hacc : AllAccepted u ((List.range' r n).flatMap fun k => s.slots.flatMap (visitEvents s · k))) :
    Finishes u ((List.range' r n).flatMap fun k => s.slots.flatMap (visitEvents s · k)) := by
  induction n generalizing r u with
  | zero =>
    have hcount := h.counted
    rw [h.slots, totalRemaining_visited (r := r) hall] at hcount
    exact finishes_nil h.busy hcount.ge
  | succ n ih =>
    rw [List.range'_succ, List.flatMap_cons] at hacc ⊢
    have hall' : ∀ sl ∈ s.slots, sl.remaining ≤ r + 1 + n := fun sl hsl => (hall sl hsl).trans_eq (by omega)
    exact finishes_round (pre := []) (by simpa using h) hacc fun v hv hrest => ih hv hall' hrest

/-- RUN's decode step, its loop and its final step: one step for each event and one for the end. -/
theorem leads_execRun (hb : s.busy = true) (hmotors : ∀ sl ∈ s.slots, s.motorOk sl.motor = true)
    (hacc : AllAccepted s (runEvents s)) : ∃ k : Counters, Leads ((runEvents s).length + 1) (execRun s)
      (.next ((complete (clearList (afterEvents (runEvents s) s))).withCounters k)) := by
  have hstart : execRun s = runHead (startRun s) := by rw [execRun, (firstBadSlot_none s 0 s.slots).mpr hmotors]
  have hslots : (startRun s).slots = s.slots.map (s.visited 0) :=
    List.map_congr_left fun sl _ => startSlot_eq_visited s sl
  have hhead : AtHead s (s.slots.map (s.visited 0)) 0 (startRun s) := ⟨hb, rfl, rfl, hslots, rfl, by simp⟩
  have hrounds : runEvents s =
      (List.range' 0 (roundCount s.slots)).flatMap fun k => s.slots.flatMap (visitEvents s · k) := by
    rw [runEvents, List.range_eq_range']
  have hall : ∀ sl ∈ s.slots, sl.remaining ≤ 0 + roundCount s.slots := fun sl hsl =>
    (remaining_le_roundCount hsl).trans_eq (Nat.zero_add _).symm
  have hfinish := finishes_rounds hhead hall (hrounds ▸ hacc)
  rw [← hrounds] at hfinish
  rw [hstart]
  exact hfinish

end Sys2Proof.Machine
end

section
/-! PROOF. The expansion of `runlist` (O57): each of its commands is one write and one `wait`, which leads from an idle
block to an idle one. -/

namespace Sys2Proof.Machine

variable {s t u : State}

/-- A command accepted by an idle block and followed by `wait` runs to its end. -/
theorem reaches_command {i : Instr} {rest : List Turn} {n : Nat} (hoff : (encode i).off = 0)
    (ha : s.agenda = commandTurn i :: .wait :: rest) (hleads : Leads n (.next (submit (encode i).v s)) (.next t))
    (ht : t.busy = false) : ∃ answers, Reaches s (t.atTurns rest answers) := by
  have hwrite : step s = .next (submit (encode i).v (s.atTurns (.wait :: rest) (s.answers ++ [.ok]))) := by
    rw [commandTurn, wrTurn, hoff] at ha
    exact step_admittedWrite (by decide) (by decide) ha
  rw [submit_atTurns] at hwrite
  obtain ⟨answers, hwait⟩ := reaches_wait rest hleads ht (s.answers ++ [.ok])
  exact ⟨answers, reaches_step hwrite hwait⟩

/-- The decode step of an accepted word that encodes a command is the command's meaning. -/
theorem sequencerStep_submit {i : Instr} (hoff : (encode i).off = 0) (hwf : i.wf = true) (hidle : s.busy = false) :
    sequencerStep (submit (encode i).v s) = exec i (submit (encode i).v s) := by
  have hd : decodeCommand (encode i).v = .ok i := by
    have h := decodeOfEncode i hwf
    rwa [decode, if_pos hoff] at h
  rw [submit_idle s _ hidle]
  simp only [sequencerStep, decodeStep, hd]

/-! ## The commands that change the list (42_step_scheduler.md R170, R172) -/

/-- The state with another list and the turns of a command that made it, accepted as `cmdl`, used up. -/
def State.listed (s : State) (slots : List Slot) (cmdl : Word) (agenda : List Turn) (answers : List Answer) : State :=
  { s with slots := slots, cmdl := cmdl, agenda := agenda, answers := answers }

/-- A command whose decode step sets the list and whose next step is its last. -/
theorem reaches_listCommand {i : Instr} {rest : List Turn} {slots : List Slot} (hoff : (encode i).off = 0)
    (hwf : i.wf = true) (hidle : s.busy = false) (hcont : s.cont = none)
    (ha : s.agenda = commandTurn i :: .wait :: rest)
    (hexec : ∀ t : State, t.cfg = s.cfg → t.chans = s.chans → t.slots = s.slots →
      exec i t = .next (continueWith .complete { t with slots := slots })) :
    ∃ answers, Reaches s (s.listed slots (encode i).v rest answers) := by
  have hdecode : sequencerStep (submit (encode i).v s) =
      .next (continueWith .complete { submit (encode i).v s with slots := slots }) := by
    rw [sequencerStep_submit hoff hwf hidle, submit_idle s _ hidle]
    exact hexec _ rfl rfl rfl
  rw [submit_idle s _ hidle] at hdecode
  have hleads : Leads 2 (.next (submit (encode i).v s)) (.next { s with slots := slots, cmdl := (encode i).v }) := by
    rw [submit_idle s _ hidle]
    refine (leads_one rfl hdecode).trans (leads_one rfl ?_)
    show Host.Outcome.next (complete _) = _
    rw [complete, ← hidle, ← hcont]
    rfl
  exact reaches_command hoff ha hleads hidle

theorem reaches_clear {rest : List Turn} (hidle : s.busy = false) (hcont : s.cont = none)
    (ha : s.agenda = commandTurn .clear :: .wait :: rest) :
    ∃ w answers, Reaches s (s.listed [] w rest answers) :=
  ⟨_, reaches_listCommand rfl rfl hidle hcont ha fun _ _ _ _ => rfl⟩

/-- The slot that LOAD makes of an item (42_step_scheduler.md R170). -/
def ListItem.slot (x : ListItem) : Slot := { motor := x.motor, dir := x.dir, remaining := x.count.toNat, idx := 0 }

/-- An item that LOAD takes, given room in the list. -/
def ListItem.Loadable (s : State) (x : ListItem) : Prop := s.motorOk x.motor = true ∧ 0 ≤ x.count ∧ x.count ≤ 32767

theorem reaches_load {x : ListItem} {rest : List Turn} (hidle : s.busy = false) (hcont : s.cont = none)
    (ha : s.agenda = commandTurn (.load x.motor x.dir x.count) :: .wait :: rest) (hx : x.Loadable s)
    (hroom : s.slots.length < s.cfg.nslot) :
    ∃ w answers, Reaches s (s.listed (s.slots ++ [x.slot]) w rest answers) := by
  obtain ⟨hmotor, hlo, hhi⟩ := hx
  have hwf : (Instr.load x.motor x.dir x.count).wf = true := decide_eq_true ⟨by omega, hhi⟩
  refine ⟨_, reaches_listCommand rfl hwf hidle hcont ha fun t hcfg hchans hslots => ?_⟩
  have hm : t.motorOk x.motor = true := (motorOk_congr s t hcfg hchans _).trans hmotor
  have hfits : t.listLen < t.cfg.nslot := by rwa [State.listLen, hslots, hcfg]
  rw [← hslots]
  show execLoad _ _ _ t = _
  rw [execLoad, if_pos hm, if_neg (Int.not_lt.mpr hlo), if_pos hfits]
  rfl

/-- The loads of a `runlist`, each with its `wait`, append the items in order. -/
theorem reaches_loads {items : List ListItem} {rest : List Turn} (hidle : s.busy = false) (hcont : s.cont = none)
    (ha : s.agenda = loadTurns items ++ rest) (hitems : ∀ x ∈ items, x.Loadable s)
    (hroom : s.slots.length + items.length ≤ s.cfg.nslot) :
    ∃ w answers, Reaches s (s.listed (s.slots ++ items.map ListItem.slot) w rest answers) := by
  induction items generalizing s with
  | nil =>
    obtain rfl : s.agenda = rest := ha
    refine ⟨s.cmdl, s.answers, ?_⟩
    rw [List.map_nil, List.append_nil]
    exact reaches_refl s
  | cons x items ih =>
    obtain ⟨hx, hitems⟩ := List.forall_mem_cons.mp hitems
    rw [List.length_cons] at hroom
    obtain ⟨w, answers, hload⟩ := reaches_load hidle hcont ha hx (by omega)
    obtain ⟨w', answers', hloads⟩ := ih (s := s.listed (s.slots ++ [x.slot]) w (loadTurns items ++ rest) answers)
      hidle hcont rfl hitems (by simp [State.listed]; omega)
    have hlist : s.slots ++ (x :: items).map ListItem.slot = s.slots ++ [x.slot] ++ items.map ListItem.slot := by simp
    rw [hlist]
    exact ⟨w', answers', hload.trans hloads⟩

/-! ## The RUN of the list -/

theorem reaches_run {rest : List Turn} (hidle : s.busy = false) (ha : s.agenda = commandTurn .run :: .wait :: rest)
    (hmotors : ∀ sl ∈ s.slots, s.motorOk sl.motor = true) (hacc : AllAccepted s (runEvents s)) :
    ∃ (k : Counters) (answers : List Answer), Reaches s
      (((complete (clearList (afterEvents (runEvents s) (submit (encode .run).v s)))).withCounters k).atTurns rest
        answers) := by
  have hdecode := sequencerStep_submit (s := s) (i := .run) rfl rfl hidle
  obtain ⟨k, hrun⟩ : ∃ k : Counters, Leads ((runEvents s).length + 1) (execRun (submit (encode .run).v s))
      (.next ((complete (clearList (afterEvents (runEvents s) (submit (encode .run).v s)))).withCounters k)) := by
    rw [submit_idle s _ hidle]
    exact leads_execRun (s := { s with cmdl := (encode .run).v, busy := true, cont := some .decode }) rfl hmotors hacc
  have hbusy : (submit (encode .run).v s).busy = true := by rw [submit_idle s _ hidle]
  exact ⟨k, reaches_command rfl ha ((leads_one hbusy hdecode).trans hrun) rfl⟩

/-- Settles O57: CLEAR empties the list, the LOADs append the items, RUN makes the closed form's events and empties
it. -/
theorem runlistRunsTheList : Obligations.RunlistRunsTheList := by
  intro s items hidle hcont ha hroom hitems hacc
  have hmotors : ∀ sl ∈ items.map ListItem.slot, s.motorOk sl.motor = true := by
    intro sl hsl
    obtain ⟨x, hx, rfl⟩ := List.mem_map.mp hsl
    exact (hitems x hx).1
  obtain ⟨w₁, answers₁, hclear⟩ := reaches_clear hidle hcont ha
  obtain ⟨w₂, answers₂, hloads⟩ := reaches_loads (s := s.listed [] w₁ _ answers₁) (items := items)
    (rest := [commandTurn .run, .wait]) hidle hcont rfl hitems (by simpa [State.listed] using hroom)
  obtain ⟨k, answers₃, hrun⟩ := reaches_run
    (s := s.listed (items.map ListItem.slot) w₂ [commandTurn .run, .wait] answers₂) hidle rfl hmotors hacc
  obtain ⟨n, hn⟩ := (hclear.trans hloads).trans hrun
  rw [submit_idle _ _ (by exact hidle)] at hn
  exact ⟨n, _, hn, rfl, rfl, rfl, rfl, rfl, rfl, rfl, rfl, rfl, rfl, rfl, rfl, rfl⟩

end Sys2Proof.Machine
end

section
/-! PROOF. The half-step tables and the traversal: an admissible table is a cyclic order of the four pins (O52), a
traversal goes from neighbour to neighbour (O53, O54). -/

namespace Sys2Proof.Machine

/-! ## The six admissible half-step tables (40_phase_table_lut.md R122, R125, R133) -/

/-- `q` may stand beside `p` in a half-step table: it has one or two active pins and differs from `p` in exactly one. -/
abbrev HalfStep (p q : Pattern) : Prop := popcount (p ^^^ q) = 1 ∧ (popcount q = 1 ∨ popcount q = 2)

/-- The half-step table that visits pin index 3, then the pins of `a`, `b` and `c`, and passes from one pin to the next
through both active. -/
def pinCycle (a b c : Pattern) : Vector Pattern 8 :=
  #v[0x8#4, 0x8#4 ||| a, a, a ||| b, b, b ||| c, c, c ||| 0x8#4]

/-- Two half-steps from a single pin lead back or to another single pin, with both pins active in between. -/
theorem halfStep_halfStep : ∀ p : Pattern, popcount p = 1 → ∀ q, HalfStep p q → ∀ r, HalfStep q r → p ≠ r →
    popcount r = 1 ∧ q = p ||| r := by
  decide

/-- The six listed tables hold every order of the other three pins. -/
theorem pinCycle_mem_sixHalfTables : ∀ a : Pattern, popcount a = 1 → 0x8#4 ≠ a →
    ∀ b, popcount b = 1 → 0x8#4 ≠ b → a ≠ b →
    ∀ c, popcount c = 1 → 0x8#4 ≠ c → a ≠ c → b ≠ c → pinCycle a b c ∈ sixHalfTables := by
  decide

theorem halfTableOk_of_mem_sixHalfTables {t : Vector Pattern 8} (h : t ∈ sixHalfTables) : HalfTableOk t := by
  simp only [sixHalfTables, List.mem_cons, List.not_mem_nil, or_false] at h
  obtain rfl | rfl | rfl | rfl | rfl | rfl := h <;> decide

/-- The entries at even indexes of an admissible table are the four pins, and they fix the entries between them. -/
theorem mem_sixHalfTables_of_halfTableOk {t : Vector Pattern 8} (h : HalfTableOk t) : t ∈ sixHalfTables := by
  obtain ⟨h0, hnext, hpins, hinj⟩ := h
  have hne : ∀ i j : Fin 8, i ≠ j → t[i.val] ≠ t[j.val] := fun i j hij he => hij (hinj i j he)
  have hstep : ∀ i : Fin 8, HalfStep t[i.val] (t[(i.val + 1) % 8]'(by omega)) := fun i => ⟨hnext i, hpins (i + 1)⟩
  have hsingle : popcount t[0] = 1 := by rw [h0]; decide
  obtain ⟨h2, h1⟩ := halfStep_halfStep t[0] hsingle t[1] (hstep 0) t[2] (hstep 1) (hne 0 2 (by decide))
  obtain ⟨h4, h3⟩ := halfStep_halfStep t[2] h2 t[3] (hstep 2) t[4] (hstep 3) (hne 2 4 (by decide))
  obtain ⟨h6, h5⟩ := halfStep_halfStep t[4] h4 t[5] (hstep 4) t[6] (hstep 5) (hne 4 6 (by decide))
  obtain ⟨-, h7⟩ := halfStep_halfStep t[6] h6 t[7] (hstep 6) t[0] (hstep 7) (hne 6 0 (by decide))
  rw [h0] at h1 h7
  have hcycle : t = pinCycle t[2] t[4] t[6] := by
    ext i hi : 1
    have hcases : i = 0 ∨ i = 1 ∨ i = 2 ∨ i = 3 ∨ i = 4 ∨ i = 5 ∨ i = 6 ∨ i = 7 := by omega
    obtain rfl | rfl | rfl | rfl | rfl | rfl | rfl | rfl := hcases
    exacts [h0, h1, rfl, h3, rfl, h5, rfl, h7]
  have hpin : ∀ i : Fin 8, 0 ≠ i → 0x8#4 ≠ t[i.val] := fun i hi => h0 ▸ hne 0 i hi
  rw [hcycle]
  exact pinCycle_mem_sixHalfTables t[2] h2 (hpin 2 (by decide)) t[4] h4 (hpin 4 (by decide)) (hne 2 4 (by decide))
    t[6] h6 (hpin 6 (by decide)) (hne 2 6 (by decide)) (hne 4 6 (by decide))

/-- Settles O52: an admissible table is one of the six cyclic orders of the four pins. -/
theorem exactlySixHalfTables : Obligations.ExactlySixHalfTables :=
  ⟨rfl, by decide, fun t => ⟨mem_sixHalfTables_of_halfTableOk, halfTableOk_of_mem_sixHalfTables⟩⟩

/-! ## The traversal (40_phase_table_lut.md R129, R132) -/

/-- Settles O53: a step of `j` is one `Next`, for `j mod L` wraps where `Next` does. -/
theorem traversalClosedForm : Obligations.TraversalClosedForm :=
  fun d len h => ⟨indexAt_zero d len, fun j => ⟨indexAt_succ d h j, indexAt_lt d h j⟩⟩

/-- `Next` goes to a neighbour in the table, the wrap pair included: forward to the entry after, backward to the one
before. -/
theorem popcount_xor_nextIndex {t : Vector Pattern 8} (h : HalfTableOk t) {i : Nat} (hi : i < 8) (d : Dir) :
    popcount (t[i] ^^^ t[nextIndex i d 8]'(nextIndex_lt i d (by decide))) = 1 := by
  obtain ⟨-, hnext, -, -⟩ := h
  cases d with
  | forward => exact hnext ⟨i, hi⟩
  | backward =>
    have hback : (nextIndex i .backward 8 + 1) % 8 = i := by
      simp only [nextIndex]
      omega
    have hbefore := hnext ⟨nextIndex i .backward 8, nextIndex_lt i .backward (by decide)⟩
    simp only [hback] at hbefore
    rwa [BitVec.xor_comm]

/-- A half-step motor reads the half-step table. -/
theorem patternAt_of_half {s : State} {m : MotorId} (hmode : (s.chan m).mode = .half) {i : Nat} (hi : i < 8) :
    s.patternAt m i = s.cfg.tableHalf[i] := by
  simp [State.patternAt, State.pattern, lookup, hmode, hi]

/-- Settles O54: the traversal moves by `Next`, and `Next` goes to a neighbour. -/
theorem consecutivePatternsDifferInOnePin : Obligations.ConsecutivePatternsDifferInOnePin := by
  intro s m d j
  refine ⟨congrArg _ (indexAt_succ d (tableLen_pos s m) j), fun htable hmode => ?_⟩
  have hi : indexAt d 8 j < 8 := indexAt_lt d (by decide) j
  rw [indexAt_succ d (by decide) j, patternAt_of_half hmode hi, patternAt_of_half hmode (nextIndex_lt _ d (by decide))]
  exact popcount_xor_nextIndex htable hi d

end Sys2Proof.Machine
end

section
/-! PROOF. No step changes the parameters (O43): one lemma per operation and step. -/

namespace Sys2Proof.Machine

variable {s : State} {c : Config}

/-- The next state the outcome gives, if it gives one, has the parameters `c`. -/
abbrev HasConfig (c : Config) (o : Outcome) : Prop := EveryNext (fun t => t.cfg = c) o

/-- Both branches of a check give what every next state is to have. -/
theorem everyNext_ite {P : State → Prop} {p : Prop} [Decidable p] {o o' : Outcome} (h : EveryNext P o)
    (h' : EveryNext P o') : EveryNext P (if p then o else o') := by
  split
  · exact h
  · exact h'

/-! ## The shared operations -/

theorem hasConfig_raise {code : ErrCode} {info : ErrInfo} {inRun : Bool} (h : s.cfg = c) :
    HasConfig c (.next (raise code info inRun s)) :=
  everyNext_next ((raise_cfg ..).trans h)

theorem hasConfig_runHead (h : s.cfg = c) : HasConfig c (runHead s) := by
  obtain ⟨n, -, -, hgo⟩ | ⟨-, -, hgo⟩ | ⟨-, hgo⟩ := runHead_cases s <;> rw [hgo]
  · exact everyNext_next h
  · exact everyNext_fault _
  · exact everyNext_next h

theorem hasConfig_writePin {w : PatternWrite} {j : Fin 4} {next : State → Outcome} (h : s.cfg = c)
    (hnext : ∀ u, u.cfg = c → HasConfig c (next u)) : HasConfig c (writePin w j next s) :=
  everyNext_ite (hnext _ ((acceptedWrite_cfg ..).trans h)) (hasConfig_raise ((drawAnswer_cfg s).trans h))

@[simp] theorem submit_cfg (w : Word) (s : State) : (submit w s).cfg = s.cfg := by
  unfold submit
  split
  · exact recordError_cfg ..
  · rfl

@[simp] theorem writeChannel_cfg (m : MotorId) (f : Channel → Channel) (s : State) :
    (writeChannel m f s).cfg = s.cfg := by
  unfold writeChannel
  split
  · split
    · exact recordError_cfg ..
    · rfl
  · rfl

/-! ## The instructions -/

theorem hasConfig_execAdvance (m : MotorId) (d : Dir) (cnt : Int) (h : s.cfg = c) :
    HasConfig c (execAdvance m d cnt s) :=
  everyNext_ite (everyNext_ite (hasConfig_raise h) (everyNext_next h)) (hasConfig_raise h)

theorem hasConfig_execLoad (m : MotorId) (d : Dir) (cnt : Int) (h : s.cfg = c) : HasConfig c (execLoad m d cnt s) :=
  everyNext_ite (everyNext_ite (hasConfig_raise h) (everyNext_ite (everyNext_next h) (hasConfig_raise h)))
    (hasConfig_raise h)

theorem hasConfig_execRun (h : s.cfg = c) : HasConfig c (execRun s) := by
  unfold execRun
  split
  · exact hasConfig_raise h
  · exact hasConfig_runHead h

theorem hasConfig_exec (i : Instr) (h : s.cfg = c) : HasConfig c (exec i s) := by
  cases i with
  | nop => exact everyNext_next h
  | advance m d cnt => exact hasConfig_execAdvance m d cnt h
  | deenergize m => exact everyNext_ite (everyNext_next h) (hasConfig_raise h)
  | load m d cnt => exact hasConfig_execLoad m d cnt h
  | run => exact hasConfig_execRun h
  | clear => exact everyNext_next h
  | clrerr => exact everyNext_next h
  | illegalOpc7 rest => exact hasConfig_raise h
  | illegalOpc8F rest => exact hasConfig_raise h
  | wrChCtrl m v => exact everyNext_next ((writeChannel_cfg ..).trans h)
  | wrChPins m v => exact everyNext_next ((writeChannel_cfg ..).trans h)
  | wrChDelay m v => exact everyNext_next ((writeChannel_cfg ..).trans h)

/-! ## The sequencer's steps -/

theorem hasConfig_decodeStep (h : s.cfg = c) : HasConfig c (decodeStep s) := by
  unfold decodeStep
  split
  · exact hasConfig_exec _ h
  · exact hasConfig_raise h

theorem hasConfig_advancePhaseStep (j : Fin 4) (h : s.cfg = c) : HasConfig c (advancePhaseStep j s) := by
  unfold advancePhaseStep
  split
  · exact everyNext_fault _
  · exact hasConfig_writePin h fun _ hu => everyNext_next hu

theorem hasConfig_runPhaseStep (j : Fin 4) (h : s.cfg = c) : HasConfig c (runPhaseStep j s) := by
  unfold runPhaseStep
  split
  · exact everyNext_fault _
  · split
    · exact everyNext_fault _
    · exact hasConfig_writePin h fun _ hu => everyNext_next hu

theorem hasConfig_runDwellStep (h : s.cfg = c) : HasConfig c (runDwellStep s) := by
  unfold runDwellStep
  split
  · exact everyNext_fault _
  · exact everyNext_ite (everyNext_next h) (hasConfig_runHead h)

theorem hasConfig_runDeenergizeStep (j : Fin 4) (h : s.cfg = c) : HasConfig c (runDeenergizeStep j s) := by
  unfold runDeenergizeStep
  split
  · exact everyNext_fault _
  · exact hasConfig_writePin h fun _ hu => everyNext_ite (hasConfig_runHead hu) (everyNext_next hu)

theorem hasConfig_sequencerStep (h : s.cfg = c) : HasConfig c (sequencerStep s) := by
  unfold sequencerStep
  split
  · exact everyNext_next h
  · exact hasConfig_decodeStep h
  · exact hasConfig_advancePhaseStep _ h
  · exact everyNext_next h
  · exact hasConfig_writePin h fun _ hu => everyNext_next hu
  · exact hasConfig_runPhaseStep _ h
  · exact hasConfig_runDwellStep h
  · exact hasConfig_runDeenergizeStep _ h
  · exact everyNext_next h
  · exact everyNext_next h

/-! ## The host's steps -/

theorem hasConfig_admittedWrite (off : Nat) (v : Word) (h : s.cfg = c) : HasConfig c (admittedWrite off v s) := by
  unfold admittedWrite
  split
  · exact everyNext_next ((submit_cfg v s).trans h)
  · split
    · exact hasConfig_exec _ h
    · exact everyNext_next h

theorem hasConfig_hostStep (op : HostOp) (h : s.cfg = c) : HasConfig c (hostStep op s) := by
  cases op with
  | regRead width off => exact everyNext_next ((hostRead_cfg ..).trans h)
  | regWrite width off v => exact everyNext_ite (hasConfig_admittedWrite off v h) (everyNext_next h)
  | setOutEn p b => exact everyNext_next h
  | setLevel p b => exact everyNext_next h
  | reset => exact everyNext_next h

theorem hasConfig_waitStep (h : s.cfg = c) : HasConfig c (waitStep s) :=
  have hread : (hostRead 32 0x004 s).cfg = c := (hostRead_cfg ..).trans h
  everyNext_ite (everyNext_next hread) (everyNext_next hread)

/-! ## A step of the machine -/

theorem hasConfig_step (h : s.cfg = c) : HasConfig c (step s) := by
  unfold step
  split
  · exact hasConfig_sequencerStep h
  · exact hasConfig_sequencerStep h
  · exact hasConfig_hostStep _ h
  · exact hasConfig_waitStep h

/-- The tables are shared: a motor's patterns depend on its mode alone (40_phase_table_lut.md R124). -/
theorem pattern_eq_of_mode_eq {m k : MotorId} (h : (s.chan m).mode = (s.chan k).mode) (i : Nat) :
    s.pattern m i = s.pattern k i := by
  simp only [State.pattern, h]

/-- Settles O43: whoever moves, the parameters stay. -/
theorem parametersAreConstant : Obligations.ParametersAreConstant :=
  fun _ t h => ⟨hasConfig_step rfl t h, fun _ _ hmode i => pattern_eq_of_mode_eq hmode i⟩

end Sys2Proof.Machine
end

section
/-! PROOF. The decode steps of ADVANCE and DEENERGIZE and ADVANCE's dwell step (O7, O13, O15, O17). -/

namespace Sys2Proof.Machine

variable {s : State} {i : Instr}

/-! ## The decode step of an accepted command (41_pwm_sequencer.md R141) -/

theorem sequencerStep_decode (hcont : s.cont = some .decode) (hd : decodeCommand s.cmdl = .ok i) :
    sequencerStep s = exec i s := by
  simp only [sequencerStep, hcont, decodeStep, hd]

theorem step_of_agenda_nil (ha : s.agenda = []) : step s = sequencerStep s := by
  simp only [step, ha]

theorem step_of_sequencer_turn {rest : List Turn} (ha : s.agenda = .sequencer :: rest) :
    step s = sequencerStep { s with agenda := rest } := by
  simp only [step, ha]

/-- Settles O7: in both forms of its turn the sequencer moves, and its step is the decode step. -/
theorem stepRunsAcceptedCommand : Obligations.StepRunsAcceptedCommand :=
  fun s _ hcont hd => ⟨fun ha => (step_of_agenda_nil ha).trans (sequencerStep_decode hcont hd), fun rest ha =>
    (step_of_sequencer_turn ha).trans (sequencerStep_decode (s := { s with agenda := rest }) hcont hd)⟩

/-! ## The checks of a decode step (60_exceptions.md R222, R223, R229) -/

theorem pack_operand (o : BitVec 4) (m : MotorId) :
    ErrInfo.pack { opc := o, motor := m } = packed (0#24 ++ m ++ o) := by
  apply BitVec.eq_of_toNat_eq
  rw [pack_toNat, packed_toNat, toNat_cat, toNat_cat]
  simp

theorem raiseOperand_eq_endedByError (code : ErrCode) (o : BitVec 4) (m : MotorId) (s : State) :
    raiseOperand code o m s = endedByError code (packed (0#24 ++ m ++ o)) s.slots s := by
  rw [raiseOperand, raise_eq_endedByError, pack_operand]
  rfl

/-! ## ADVANCE and DEENERGIZE (41_pwm_sequencer.md R150, R156) -/

/-- ADVANCE's decode step with its checks passed. -/
theorem execAdvance_accepted {m : MotorId} {cnt : Int} (d : Dir) (hm : s.motorOk m = true) (hcnt : 0 ≤ cnt) :
    execAdvance m d cnt s = .next (continueWith (advanceHead cnt.toNat)
      { s with advIdx := startIndex d (s.tableLen m), advLeft := cnt.toNat }) := by
  rw [execAdvance, if_pos hm, if_neg (Int.not_lt.mpr hcnt)]

theorem advanceHead_toNat {cnt : Int} (hcnt : 0 ≤ cnt) :
    advanceHead cnt.toNat = if cnt = 0 then .deenergize 0 else .advPhase 0 := by
  obtain rfl | hpos := hcnt.eq_or_lt
  · rfl
  · rw [advanceHead, if_pos (by omega), if_neg hpos.ne']

/-- Settles O13: the two checks in their order, then the initialisation. -/
theorem advanceDecodeStep : Obligations.AdvanceDecodeStep := by
  intro m d cnt s
  refine ⟨fun hm => ?_, fun hm hneg => ?_, fun hm hcnt => ?_⟩
  · rw [exec, execAdvance, if_neg (by simp [hm]), raiseOperand_eq_endedByError]
  · rw [exec, execAdvance, if_pos hm, if_pos hneg, raiseOperand_eq_endedByError]
  · rw [exec, execAdvance_accepted d hm hcnt, advanceHead_toNat hcnt]
    rfl

/-- DEENERGIZE's decode step with its check passed. -/
theorem execDeenergize_accepted {m : MotorId} (hm : s.motorOk m = true) :
    execDeenergize m s = .next (continueWith (.deenergize 0) s) :=
  if_pos hm

/-- Settles O15: the motor check. -/
theorem deenergizeDecodeStep : Obligations.DeenergizeDecodeStep := by
  intro m s
  refine ⟨fun hm => ?_, execDeenergize_accepted⟩
  rw [exec, execDeenergize, if_neg (by simp [hm]), raiseOperand_eq_endedByError]

/-- One phase-step less to make leaves some exactly if there was more than one. -/
theorem advanceHead_pred (left : Nat) :
    advanceHead (left - 1) = if 1 < left then .advPhase 0 else .deenergize 0 :=
  if_congr (by omega) rfl rfl

/-- Settles O17: the loop's test is on the decremented ADV_LEFT. (The bare name is the model's step.) -/
theorem advanceDwellStep_spec : Obligations.AdvanceDwellStep := by
  intro s hcont ha
  rw [step_of_agenda_nil ha, ← advanceHead_pred]
  simp only [sequencerStep, hcont]
  rfl

end Sys2Proof.Machine
end

section
/-! PROOF. The host's writes to CMD and to a channel's registers (O29, O30, O31, O32). -/

namespace Sys2Proof.Machine

variable {s : State}

/-- What a busy block records of the command word it drops (60_exceptions.md R224, R229). -/
theorem submit_busy_eq_recorded (w : Word) (hbusy : s.busy = true) :
    submit w s = recorded .busy (packed (0#24 ++ motorField w ++ opcField w)) s := by
  rw [submit_busy s w hbusy, recordError_eq_recorded, pack_operand]

/-- Settles O29: the write is admitted and answered, and then submits the word. -/
theorem commandAcceptedOrDropped : Obligations.CommandAcceptedOrDropped := by
  intro s w rest ha
  have hstep : step s = .next (submit w (answer .ok { s with agenda := rest })) :=
    step_admittedWrite rfl (by decide) ha
  rw [hstep]
  exact ⟨fun hidle => congrArg _ (submit_idle (answer .ok { s with agenda := rest }) w hidle),
    fun hbusy => congrArg _ (submit_busy_eq_recorded (s := answer .ok { s with agenda := rest }) w hbusy)⟩

/-! ## The channel's registers (41_pwm_sequencer.md R157 to R159) -/

theorem pack_regw (m : MotorId) :
    ErrInfo.pack { regw := true, motor := m } = packed (0#20 ++ 1#1 ++ 0#3 ++ m ++ 0#4) := by
  apply BitVec.eq_of_toNat_eq
  rw [pack_toNat, packed_toNat]
  simp only [toNat_cat, BitVec.toNat_ofNat, Bool.toNat_true, Bool.toNat_false]
  omega

/-- A write of a busy block's channel is dropped with E_BUSY (60_exceptions.md R224). -/
theorem exec_channelWrite_busy {m : MotorId} {v : Word} {i : Instr}
    (hi : i = .wrChCtrl m v ∨ i = .wrChPins m v ∨ i = .wrChDelay m v) (hm : m.toNat < s.cfg.nm)
    (hbusy : s.busy = true) :
    exec i s = .next (recorded .busy (packed (0#20 ++ 1#1 ++ 0#3 ++ m ++ 0#4)) s) := by
  have hwrite : ∀ f : Channel → Channel,
      writeChannel m f s = recorded .busy (packed (0#20 ++ 1#1 ++ 0#3 ++ m ++ 0#4)) s := fun f => by
    rw [writeChannel_busy s m f hm hbusy, recordError_eq_recorded, pack_regw]
  obtain rfl | rfl | rfl := hi <;> exact congrArg _ (hwrite _)

theorem readReg_chCtrl {m : MotorId} (hm : m.toNat < s.cfg.nm) :
    readReg s (0x100 + 0x10 * m.toNat) = (s.chan m).ctrlWord := by
  obtain ⟨hctrl, -, -⟩ := regAt_channel s.cfg m hm
  simp only [readReg, hctrl]

theorem bit_getLsbD (v : Word) (i : Nat) : bit (v.getLsbD i) = v.extractLsb' i 1 := by
  apply BitVec.eq_of_toNat_eq
  rw [bit_toNat, field_toNat, getLsbD_eq_field]
  obtain h | h := Nat.mod_two_eq_zero_or_one (v.toNat / 2 ^ i) <;> simp [h]

/-- CH_CTRL shows the two bits that a write of `v` keeps (10_state.md R25). -/
theorem ctrlWord_of_word {c : Channel} {v : Word} (hvalid : c.valid = v.getLsbD 0)
    (hmode : c.mode = if v.getLsbD 1 then .full else .half) : c.ctrlWord = v &&& 3#32 := by
  have hbit : modeBit c.mode = bit (v.getLsbD 1) := by
    rw [hmode]
    cases v.getLsbD 1 <;> rfl
  have hand : (v &&& 3#32).toNat = v.toNat % 2 ^ 2 := Nat.and_two_pow_sub_one_eq_mod v.toNat 2
  rw [Channel.ctrlWord, hvalid, hbit, bit_getLsbD, bit_getLsbD]
  apply BitVec.eq_of_toNat_eq
  rw [hand, packed_toNat]
  simp only [toNat_cat, field_toNat, BitVec.toNat_ofNat]
  omega

/-- CH_PINS shows the word whose bytes its pin ids are (10_state.md R26). -/
theorem pinsWord_of_bytes {c : Channel} {v : Word} (h0 : c.pin0 = v.extractLsb' 0 8) (h1 : c.pin1 = v.extractLsb' 8 8)
    (h2 : c.pin2 = v.extractLsb' 16 8) (h3 : c.pin3 = v.extractLsb' 24 8) : c.pinsWord = v := by
  apply BitVec.eq_of_toNat_eq
  simp only [pinsWord_toNat, h0, h1, h2, h3, field_toNat]
  omega

/-- Settles O30: VALID and MODE are the two bits read back. -/
theorem writeChCtrl : Obligations.WriteChCtrl := by
  intro m v s
  refine ⟨fun hm hidle => ⟨_, exec_wrChCtrl_idle v hidle hm, rfl, ?_, fun k hk => chan_setChan_ne s m k _ hk⟩,
    exec_channelWrite_busy (.inl rfl), exec_channelWrite_absent (.inl rfl)⟩
  rw [readReg_chCtrl (by exact hm), chan_setChan_self]
  exact ctrlWord_of_word rfl rfl

/-- Settles O31: the pin ids are the bytes of the word read back. -/
theorem writeChPins : Obligations.WriteChPins := by
  intro m v s
  refine ⟨fun hm hidle => ⟨_, exec_wrChPins_idle v hidle hm, rfl, ?_, fun k hk => chan_setChan_ne s m k _ hk⟩,
    exec_channelWrite_busy (.inr (.inl rfl)), exec_channelWrite_absent (.inr (.inl rfl))⟩
  rw [readReg_chPins (by exact hm), chan_setChan_self]
  exact pinsWord_of_bytes rfl rfl rfl rfl

/-- Settles O32: the register is the field. -/
theorem writeChDelay : Obligations.WriteChDelay := by
  intro m v s
  refine ⟨fun hm hidle => ⟨_, exec_wrChDelay_idle v hidle hm, rfl, ?_, fun k hk => chan_setChan_ne s m k _ hk⟩,
    exec_channelWrite_busy (.inr (.inr rfl)), exec_channelWrite_absent (.inr (.inr rfl))⟩
  rw [readReg_chDelay (by exact hm), chan_setChan_self]

end Sys2Proof.Machine
end

section
/-! PROOF. An ADVANCE and a DEENERGIZE from their acceptance to their end (O14, O16): the phase-steps one after the other,
then the de-energize and the final step. -/

namespace Sys2Proof.Machine

variable {s t u : State}

/-! ## A run without the host -/

/-- The sequencer's step takes no turn, so with none left it leaves none. -/
theorem agenda_of_sequencerStep (ha : s.agenda = []) (h : sequencerStep s = .next t) : t.agenda = [] := by
  have hs : s.atTurns [] s.answers = s := by rw [State.atTurns, ← ha]
  have hturns := sequencerStep_atTurns s [] s.answers
  rw [hs, h] at hturns
  exact congrArg State.agenda (Host.Outcome.next.inj hturns)

theorem endsAfter_succ {n : Nat} (hb : s.busy = true) (hstep : step s = .next u) (h : EndsAfter n u t) :
    EndsAfter (n + 1) s t := by
  obtain ⟨hrun, hidle, hcont, hbusy⟩ := h
  refine ⟨run_succ_eq_next_iff.mpr ⟨u, hstep, hrun⟩, hidle, hcont, fun k hk => ?_⟩
  cases k with
  | zero => exact ⟨s, rfl, hb⟩
  | succ k =>
    obtain ⟨v, hv, hvb⟩ := hbusy k (Nat.lt_of_succ_lt_succ hk)
    exact ⟨v, run_succ_eq_next_iff.mpr ⟨u, hstep, hv⟩, hvb⟩

/-- With no turn left the machine makes the steps that the sequencer makes alone. -/
theorem endsAfter_of_leads {n : Nat} (h : Leads n (.next s) (.next t)) (ha : s.agenda = []) (hidle : t.busy = false)
    (hcont : t.cont = none) : EndsAfter n s t := by
  induction n generalizing s with
  | zero =>
    cases h
    exact ⟨rfl, hidle, hcont, fun k hk => absurd hk (Nat.not_lt_zero k)⟩
  | succ n ih =>
    cases h with
    | step hb h =>
      obtain ⟨u, hu⟩ := exists_next_of_leads h
      rw [hu] at h
      exact endsAfter_succ hb ((step_of_agenda_nil ha).trans hu) (ih h (agenda_of_sequencerStep ha hu))

/-- A command that makes the events and completes has their effect, whatever its counters end at. -/
theorem commandEffect_complete (evs : List Event) (s : State) (k : Counters) :
    CommandEffect evs s.slots s ((complete (afterEvents evs s)).withCounters k) :=
  ⟨rfl, rfl, rfl, rfl, rfl, rfl, rfl, rfl, rfl, rfl, rfl, rfl, rfl, rfl⟩

/-! ## The decode step -/

theorem decodeCommand_of_accepted {i : Instr} (hoff : (encode i).off = 0) (hwf : i.wf = true)
    (h : Accepted (commandWord i) s) : decodeCommand s.cmdl = .ok i := by
  have hd := decodeOfEncode i hwf
  rw [decode, if_pos hoff] at hd
  rw [h.cmdl, commandWord, if_pos hoff, hd]

/-- The first step of an accepted command is its meaning. -/
theorem leads_exec {i : Instr} {w : Word} (h : Accepted w s) (hd : decodeCommand s.cmdl = .ok i) :
    Leads 1 (.next s) (exec i s) :=
  leads_one h.busy (sequencerStep_decode h.cont hd)

/-! ## The de-energize and the final step (41_pwm_sequencer.md R150, R156) -/

theorem leads_complete (hb : s.busy = true) : Leads 1 (.next (continueWith .complete s)) (.next (complete s)) :=
  leads_one hb rfl

/-- The writes of the all-zero pattern lead to the end of the command. -/
theorem leads_deenergize (hb : s.busy = true) (hacc : AllAccepted s (deenergizeEvents s s.cmdMotor)) :
    Leads 5 (.next (continueWith (.deenergize 0) s)) (.next (complete (afterEvents (deenergizeEvents s s.cmdMotor) s))) :=
  (leads_pattern .deenergize { motor := s.cmdMotor, pat := 0#4, deen := true, slot := none }
    (fun j t => .next (continueWith (if j = 3 then .complete else .deenergize (j + 1)) t)) hb (fun _ _ => rfl)
    (fun j t hj => by rw [if_neg hj]) hacc).trans (leads_complete hb)

/-- Settles O16: the decode step, the four writes and the final step. -/
theorem deenergizeCompletes : Obligations.DeenergizeCompletes := by
  intro m s h hm hacc
  have hd := decodeCommand_of_accepted (i := .deenergize m) rfl rfl h
  obtain ⟨-, -, rfl⟩ := readFrom_of_decodeCommand hd
  have hexec := leads_exec h hd
  rw [exec, execDeenergize_accepted hm] at hexec
  exact ⟨_, endsAfter_of_leads (hexec.trans (leads_deenergize h.busy hacc)) h.agenda rfl rfl,
    commandEffect_complete _ s s.counters⟩

/-! ## The phase-steps (41_pwm_sequencer.md R150, R151) -/

theorem advancePhaseStep_eq (hidx : s.advIdx < s.tableLen s.cmdMotor) (j : Fin 4) : advancePhaseStep j s =
    writePin { motor := s.cmdMotor, pat := s.patternAt s.cmdMotor s.advIdx, deen := false, slot := none } j
      (fun t => .next (continueWith (if j = 3 then .advDwell else .advPhase (j + 1)) t)) s := by
  simp only [advancePhaseStep, pattern_eq_some hidx]

/-- ADVANCE's updates for a phase-step, without its events. -/
def stepAdvance (s : State) : State :=
  { s with advIdx := nextIndex s.advIdx s.cmdDir (s.tableLen s.cmdMotor), advLeft := s.advLeft - 1 }

/-- The writes of the phase pattern lead to the dwell. -/
theorem leads_advPhase (hb : s.busy = true) (hidx : s.advIdx < s.tableLen s.cmdMotor)
    (hacc : AllAccepted s (patternEvents (s.chan s.cmdMotor) (s.patternAt s.cmdMotor s.advIdx))) :
    Leads 4 (.next (continueWith (.advPhase 0) s)) (.next (continueWith .advDwell
      (afterEvents (patternEvents (s.chan s.cmdMotor) (s.patternAt s.cmdMotor s.advIdx)) s))) :=
  leads_pattern .advPhase
    { motor := s.cmdMotor, pat := s.patternAt s.cmdMotor s.advIdx, deen := false, slot := none }
    (fun j t => .next (continueWith (if j = 3 then .advDwell else .advPhase (j + 1)) t)) hb
    (fun j evs => advancePhaseStep_eq (s := continueWith (.advPhase j) (afterEvents evs s)) hidx j)
    (fun j t hj => by rw [if_neg hj]) hacc

/-- A phase-step makes its events and leads to the next one, or to the de-energize. -/
theorem leads_phaseStep (hb : s.busy = true) (hidx : s.advIdx < s.tableLen s.cmdMotor)
    (hacc : AllAccepted s (phaseEvents s s.cmdMotor s.advIdx)) :
    Leads 5 (.next (continueWith (.advPhase 0) s)) (.next (continueWith (advanceHead (s.advLeft - 1))
      (afterEvents (phaseEvents s s.cmdMotor s.advIdx) (stepAdvance s)))) := by
  obtain ⟨hpat, -⟩ := allAccepted_append.mp hacc
  refine (leads_advPhase hb hidx hpat).trans (leads_one hb ?_)
  rw [phaseEvents, afterEvents_append]
  show advanceDwellStep _ = _
  rw [advanceDwellStep, dwell_eq_afterEvents]
  rfl

/-- The events of the first `j` phase-steps of motor `m` in direction `d`. -/
def phaseStepEvents (s : State) (m : MotorId) (d : Dir) (j : Nat) : List Event :=
  (List.range j).flatMap fun i => phaseEvents s m (indexAt d (s.tableLen m) i)

theorem phaseStepEvents_succ (s : State) (m : MotorId) (d : Dir) (j : Nat) :
    phaseStepEvents s m d (j + 1) = phaseStepEvents s m d j ++ phaseEvents s m (indexAt d (s.tableLen m) j) := by
  simp [phaseStepEvents, List.range_succ]

/-- The state in which `j` of the running ADVANCE's `cnt` phase-steps have been made. -/
def State.advanced (s : State) (cnt j : Nat) : State :=
  afterEvents (phaseStepEvents s s.cmdMotor s.cmdDir j)
    { s with advIdx := indexAt s.cmdDir (s.tableLen s.cmdMotor) j, advLeft := cnt - j }

theorem advanced_zero (s : State) (cnt : Nat) : s.advanced cnt 0 =
    { s with advIdx := startIndex s.cmdDir (s.tableLen s.cmdMotor), advLeft := cnt } := by
  rw [State.advanced, indexAt_zero]
  exact afterEvents_nil _

/-- A phase-step more has been made after a phase-step. -/
theorem advanced_succ (s : State) (cnt j : Nat) : s.advanced cnt (j + 1) =
    afterEvents (phaseEvents s s.cmdMotor (indexAt s.cmdDir (s.tableLen s.cmdMotor) j))
      (stepAdvance (s.advanced cnt j)) := by
  have hidx := indexAt_succ s.cmdDir (tableLen_pos s s.cmdMotor) j
  rw [State.advanced, phaseStepEvents_succ, afterEvents_append, hidx, ← Nat.sub_sub]
  rfl

/-- The first `j` phase-steps make their events, five steps each. -/
theorem leads_phaseSteps {cnt j : Nat} (hb : s.busy = true) (hj : j ≤ cnt)
    (hacc : AllAccepted s (phaseStepEvents s s.cmdMotor s.cmdDir j)) :
    Leads (5 * j) (.next (continueWith (advanceHead cnt) (s.advanced cnt 0)))
      (.next (continueWith (advanceHead (cnt - j)) (s.advanced cnt j))) := by
  induction j with
  | zero => exact .done _
  | succ j ih =>
    rw [phaseStepEvents_succ, allAccepted_append] at hacc
    obtain ⟨hbefore, hthis⟩ := hacc
    have hidx : (s.advanced cnt j).advIdx < s.tableLen s.cmdMotor := indexAt_lt s.cmdDir (tableLen_pos s s.cmdMotor) j
    have hhead : advanceHead (cnt - j) = .advPhase 0 := if_pos (Nat.sub_pos_of_lt hj)
    have hstep := leads_phaseStep (s := s.advanced cnt j) hb hidx hthis
    rw [← hhead] at hstep
    rw [Nat.mul_succ, advanced_succ, ← Nat.sub_sub]
    exact (ih (Nat.le_of_succ_le hj) hbefore).trans hstep

/-- ADVANCE after its decode step: the phase-steps in order, the de-energize and the final step. -/
theorem leads_advance {cnt : Nat} (hb : s.busy = true)
    (hacc : AllAccepted s (advanceEvents s s.cmdMotor s.cmdDir cnt)) :
    Leads (5 * cnt + 5) (.next (continueWith (advanceHead cnt) (s.advanced cnt 0)))
      (.next ((complete (afterEvents (advanceEvents s s.cmdMotor s.cmdDir cnt) s)).withCounters
        (s.advanced cnt cnt).counters)) := by
  obtain ⟨hphases, hdeen⟩ := allAccepted_append.mp hacc
  have hsteps := leads_phaseSteps hb le_rfl hphases
  rw [Nat.sub_self] at hsteps
  rw [advanceEvents, afterEvents_append]
  exact hsteps.trans (leads_deenergize (s := s.advanced cnt cnt) hb hdeen)

/-- Settles O14: the decode step, and then ADVANCE's course. -/
theorem advanceCompletes : Obligations.AdvanceCompletes := by
  intro m d cnt s hlo hhi h hm hacc
  have hwf : (Instr.advance m d cnt).wf = true := decide_eq_true ⟨by omega, hhi⟩
  have hd := decodeCommand_of_accepted rfl hwf h
  obtain ⟨-, -, rfl, rfl, -⟩ := readFrom_of_decodeCommand hd
  have hstart : exec (.advance (motorField s.cmdl) (dirField s.cmdl) cnt) s =
      .next (continueWith (advanceHead cnt.toNat) (s.advanced cnt.toNat 0)) := by
    rw [advanced_zero]
    exact execAdvance_accepted _ hm hlo
  have hexec := leads_exec h hd
  rw [hstart] at hexec
  have hleads := hexec.trans (leads_advance h.busy hacc)
  rw [Nat.add_comm 1] at hleads
  exact ⟨_, endsAfter_of_leads hleads h.agenda rfl rfl, commandEffect_complete _ s _⟩

end Sys2Proof.Machine
end

section
/-! PROOF. A traversal of whole turns in one direction is the other's in reverse (O55). -/

namespace Sys2Proof.Machine

/-- In whole turns of a table the backward traversal is at `j` where the forward one is as far from its end. -/
theorem indexAt_backward_eq_forward {len k j : Nat} (hk : k % len = 0) (hj : j < k) :
    indexAt .backward len j = indexAt .forward len (k - 1 - j) := by
  obtain ⟨q, rfl⟩ := Nat.dvd_of_mod_eq_zero hk
  show len - 1 - j % len = (len * q - 1 - j) % len
  rw [Nat.sub_sub, Nat.sub_sub, Nat.add_comm 1, Nat.add_comm 1, Nat.mul_sub_mod hj]

/-- Settles O55: index by index, and the example by evaluation. -/
theorem directionSymmetry : Obligations.DirectionSymmetry := by
  refine ⟨fun s m k hk => ?_, rfl, rfl⟩
  refine List.ext_getElem (by simp) fun j hj _ => ?_
  have hj : j < k := by simpa using hj
  simp [indexAt_backward_eq_forward hk hj]

end Sys2Proof.Machine
end

section
/-! PROOF. How many events a RUN and an ADVANCE make (O27, O28), and a RUN from its acceptance to its end (O24, O25). -/

namespace Sys2Proof.Machine

variable {s : State}

/-! ## The events of one slot (42_step_scheduler.md R180, R182) -/

/-- The events that a slot's visits make in all the rounds: ADVANCE's, and none without work. -/
def burstEvents (s : State) (sl : Slot) : List Event :=
  if sl.remaining = 0 then [] else advanceEvents s sl.motor sl.dir sl.remaining

theorem visitEvents_of_more {r : Nat} {sl : Slot} (h : r + 1 < sl.remaining) :
    visitEvents s sl r = phaseEvents s sl.motor (indexAt sl.dir (s.tableLen sl.motor) r) := by
  rw [visitEvents, if_pos (Nat.lt_of_succ_lt h), if_neg h.ne', List.append_nil]

theorem visitEvents_of_last {r : Nat} {sl : Slot} (h : sl.remaining = r + 1) :
    visitEvents s sl r = phaseEvents s sl.motor (indexAt sl.dir (s.tableLen sl.motor) r) ++
      deenergizeEvents s sl.motor := by
  rw [visitEvents, if_pos (h ▸ Nat.lt_succ_self r), if_pos h]

/-- A slot's visits up to its last one make ADVANCE's events. -/
theorem flatMap_visitEvents_remaining (s : State) (sl : Slot) :
    (List.range sl.remaining).flatMap (visitEvents s sl) = burstEvents s sl := by
  cases hn : sl.remaining with
  | zero => exact (if_pos hn).symm
  | succ n =>
    have hbefore : (List.range n).flatMap (visitEvents s sl) = phaseStepEvents s sl.motor sl.dir n :=
      List.flatMap_congr fun r hr => visitEvents_of_more (by have := List.mem_range.mp hr; omega)
    have hburst : burstEvents s sl =
        phaseStepEvents s sl.motor sl.dir (n + 1) ++ deenergizeEvents s sl.motor := by
      rw [burstEvents, if_neg (by omega), hn]
      rfl
    rw [List.range_succ, List.flatMap_append, hbefore, List.flatMap_singleton, visitEvents_of_last hn, hburst,
      phaseStepEvents_succ, List.append_assoc]

/-- The rounds after a slot's last visit add nothing. -/
theorem flatMap_visitEvents {sl : Slot} {n : Nat} (h : sl.remaining ≤ n) :
    (List.range n).flatMap (visitEvents s sl) = burstEvents s sl := by
  obtain ⟨k, rfl⟩ := Nat.exists_eq_add_of_le h
  have hafter : ((List.range k).map (sl.remaining + ·)).flatMap (visitEvents s sl) = [] :=
    List.flatMap_eq_nil_iff.mpr fun r hr => by
      obtain ⟨i, -, rfl⟩ := List.mem_map.mp hr
      exact visitEvents_of_done (Nat.le_add_right _ _)
  rw [List.range_add, List.flatMap_append, hafter, List.append_nil, flatMap_visitEvents_remaining]

/-- Settles O28: the rounds of a one-slot list are that slot's visits. -/
theorem oneSlotRunIsAdvance : Obligations.OneSlotRunIsAdvance := by
  intro s m d k i hslots
  have hrun : runEvents s = burstEvents s { motor := m, dir := d, remaining := k, idx := i } := by
    rw [runEvents, hslots, ← flatMap_visitEvents (n := k) le_rfl]
    simp [roundCount]
  rw [hrun]
  refine ⟨fun hk => if_neg (Nat.ne_of_gt hk), ?_⟩
  rintro rfl
  exact ⟨rfl, rfl⟩

/-! ## The numbers of events (41_pwm_sequencer.md R152, 42_step_scheduler.md R182) -/

/-- RUN's events are, in another order, one slot's after the other's. -/
theorem runEvents_perm (s : State) : (runEvents s).Perm (s.slots.flatMap (burstEvents s)) := by
  have hswap : (runEvents s).Perm
      (s.slots.flatMap fun sl => (List.range (roundCount s.slots)).flatMap (visitEvents s sl)) := by
    rw [← Multiset.coe_eq_coe, runEvents]
    simp only [← Multiset.coe_bind]
    exact Multiset.bind_bind _ _
  rwa [List.flatMap_congr fun sl hsl => flatMap_visitEvents (remaining_le_roundCount hsl)] at hswap

theorem length_phaseStepEvents (s : State) (m : MotorId) (d : Dir) (cnt : Nat) :
    (phaseStepEvents s m d cnt).length = 5 * cnt ∧ (pinsWritten (phaseStepEvents s m d cnt)).length = 4 * cnt := by
  induction cnt with
  | zero => exact ⟨rfl, rfl⟩
  | succ n ih =>
    obtain ⟨hall, hpins⟩ := ih
    rw [phaseStepEvents_succ, pinsWritten_append, List.length_append, List.length_append, hall, hpins]
    exact ⟨rfl, rfl⟩

theorem length_advanceEvents (s : State) (m : MotorId) (d : Dir) (cnt : Nat) :
    (pinsWritten (advanceEvents s m d cnt)).length = 4 * (cnt + 1) ∧
      (advanceEvents s m d cnt).length = 5 * cnt + 4 := by
  obtain ⟨hall, hpins⟩ := length_phaseStepEvents s m d cnt
  have hsplit : advanceEvents s m d cnt = phaseStepEvents s m d cnt ++ deenergizeEvents s m := rfl
  rw [hsplit, pinsWritten_append, List.length_append, List.length_append, hall, hpins]
  exact ⟨rfl, rfl⟩

theorem length_burstEvents (s : State) (sl : Slot) :
    (pinsWritten (burstEvents s sl)).length = 4 * (sl.remaining + if 0 < sl.remaining then 1 else 0) ∧
      (burstEvents s sl).length = 5 * sl.remaining + 4 * if 0 < sl.remaining then 1 else 0 := by
  unfold burstEvents
  split
  next hzero =>
    rw [hzero]
    exact ⟨rfl, rfl⟩
  next hwork =>
    rw [if_pos (Nat.pos_of_ne_zero hwork)]
    exact length_advanceEvents ..

theorem activeCount_cons (sl : Slot) (rest : List Slot) :
    activeCount (sl :: rest) = activeCount rest + if 0 < sl.remaining then 1 else 0 := by
  simp [activeCount, List.countP_cons]

theorem length_bursts (s : State) (slots : List Slot) :
    (pinsWritten (slots.flatMap (burstEvents s))).length = 4 * (totalRemaining slots + activeCount slots) ∧
      (slots.flatMap (burstEvents s)).length = 5 * totalRemaining slots + 4 * activeCount slots := by
  induction slots with
  | nil => exact ⟨rfl, rfl⟩
  | cons sl rest ih =>
    obtain ⟨hpins, hall⟩ := ih
    obtain ⟨hpins', hall'⟩ := length_burstEvents s sl
    rw [List.flatMap_cons, pinsWritten_append, List.length_append, List.length_append, hpins, hall, hpins', hall',
      totalRemaining_cons, activeCount_cons]
    constructor <;> omega

/-- Settles O27: counting does not depend on the order, so the slots are counted one by one. -/
theorem eventCounts : Obligations.EventCounts := by
  intro s
  have hperm := runEvents_perm s
  obtain ⟨hpins, hall⟩ := length_bursts s s.slots
  exact ⟨(hperm.filterMap _).length_eq.trans hpins, hperm.length_eq.trans hall, length_advanceEvents s⟩

/-! ## A RUN from its acceptance to its end (42_step_scheduler.md R174, R178, R183) -/

theorem decodeCommand_run_of_accepted (h : Accepted 0x4000_0000#32 s) : decodeCommand s.cmdl = .ok .run :=
  decodeCommand_of_accepted (i := .run) rfl rfl h

theorem execRun_of_motorOk (h : ∀ sl ∈ s.slots, s.motorOk sl.motor = true) : execRun s = runHead (startRun s) := by
  rw [execRun, (firstBadSlot_none s 0 s.slots).mpr h]

/-- A RUN that makes the events and completes has their effect, whatever its counters end at. -/
theorem commandEffect_runEnd (evs : List Event) (s : State) (k : Counters) :
    CommandEffect evs [] s ((complete (clearList (afterEvents evs s))).withCounters k) :=
  ⟨rfl, rfl, rfl, rfl, rfl, rfl, rfl, rfl, rfl, rfl, rfl, rfl, rfl, rfl⟩

/-- Settles O24: the decode step, then one step for each event and the final step. -/
theorem runCompletes : Obligations.RunCompletes := by
  intro s h hmotors hacc
  obtain ⟨-, hlen, -⟩ := eventCounts s
  obtain ⟨k, hrun⟩ := leads_execRun h.busy hmotors hacc
  have hleads := (leads_exec h (decodeCommand_run_of_accepted h)).trans hrun
  have hsteps : 1 + ((runEvents s).length + 1) = 2 + 5 * totalRemaining s.slots + 4 * activeCount s.slots := by omega
  rw [hsteps] at hleads
  exact ⟨_, endsAfter_of_leads hleads h.agenda rfl rfl, commandEffect_runEnd _ s k⟩

/-- Settles O25: the loop's first test ends it. -/
theorem runWithoutWorkMakesNoEvent : Obligations.RunWithoutWorkMakesNoEvent := by
  intro s h hslots
  have hzero : totalRemaining s.slots = 0 := List.sum_eq_zero fun n hn => by
    obtain ⟨sl, hsl, rfl⟩ := List.mem_map.mp hn
    exact (hslots sl hsl).2
  have hexec : exec .run s = .next (continueWith .runEnd (startRun s)) :=
    (execRun_of_motorOk fun sl hsl => (hslots sl hsl).1).trans (runHead_end hzero.le)
  have hdecode := leads_exec h (decodeCommand_run_of_accepted h)
  rw [hexec] at hdecode
  have hend : complete (clearList (startRun s)) =
      { s with slots := [], runTotal := 0, runDone := 0, runCur := 0, busy := false, cont := none } := by
    rw [startRun, hzero]
    rfl
  rw [← hend]
  exact endsAfter_of_leads (hdecode.trans (leads_runEnd h.busy)) h.agenda rfl rfl

end Sys2Proof.Machine
end

section
/-! PROOF. The steps of the step_scheduler that are no pin write: the decode steps of LOAD, CLEAR and RUN, and RUN's
dwell step (O20 to O23, O26). -/

namespace Sys2Proof.Machine

variable {s : State}

/-! ## LOAD and CLEAR (42_step_scheduler.md R170, R172) -/

/-- An accepted command whose decode step does no more than set the list ends with its second step. -/
theorem endsAfter_listCommand {i : Instr} {slots : List Slot} (hoff : (encode i).off = 0) (hwf : i.wf = true)
    (h : Accepted (commandWord i) s) (hexec : exec i s = .next { s with slots := slots, cont := some .complete }) :
    EndsAfter 2 s { s with slots := slots, busy := false, cont := none } := by
  have hdecode := leads_exec h (decodeCommand_of_accepted hoff hwf h)
  rw [hexec] at hdecode
  exact endsAfter_of_leads (hdecode.trans (leads_complete (s := { s with slots := slots }) h.busy)) h.agenda rfl rfl

theorem execLoad_accepted {m : MotorId} {cnt : Int} (d : Dir) (hm : s.motorOk m = true) (hcnt : 0 ≤ cnt)
    (hroom : s.listLen < s.cfg.nslot) : execLoad m d cnt s = .next { s with
      slots := s.slots ++ [{ motor := m, dir := d, remaining := cnt.toNat, idx := 0 }]
      cont := some .complete } := by
  rw [execLoad, if_pos hm, if_neg (Int.not_lt.mpr hcnt), if_pos hroom]
  rfl

/-- Settles O20: the three checks in their order, then the new slot. -/
theorem loadAppendsOneSlot : Obligations.LoadAppendsOneSlot := by
  intro m d cnt s
  refine ⟨fun hm => ?_, fun hm hneg => ?_, fun hm hcnt hfull => ?_, fun hm hcnt hroom => ?_⟩
  · rw [exec, execLoad, if_neg (by simp [hm]), raiseOperand_eq_endedByError]
  · rw [exec, execLoad, if_pos hm, if_pos hneg, raiseOperand_eq_endedByError]
  · rw [exec, execLoad, if_pos hm, if_neg (Int.not_lt.mpr hcnt), if_neg hfull.not_lt, raiseOperand_eq_endedByError]
  · have hexec := execLoad_accepted d hm hcnt hroom
    refine ⟨hexec, fun hhi h => ?_⟩
    have hwf : (Instr.load m d cnt).wf = true := decide_eq_true ⟨by omega, hhi⟩
    exact endsAfter_listCommand rfl hwf h hexec

/-- Settles O21: CLEAR is the command that sets the empty list. -/
theorem clearEmptiesList : Obligations.ClearEmptiesList :=
  fun _ => ⟨rfl, fun h => endsAfter_listCommand (i := .clear) rfl rfl h rfl⟩

/-! ## RUN's check of the list (42_step_scheduler.md R174, 60_exceptions.md R229) -/

/-- The slots before the first failing one are passed over. -/
theorem firstBadSlot_eq_some {slots : List Slot} {n : Nat} {sl : Slot} (hsl : slots[n]? = some sl)
    (hbad : s.motorOk sl.motor = false)
    (hgood : ∀ (k : Nat) (sk : Slot), k < n → slots[k]? = some sk → s.motorOk sk.motor = true) (k : Nat) :
    firstBadSlot s k slots = some (k + n, sl.motor) := by
  induction slots generalizing n k with
  | nil => cases hsl
  | cons x rest ih =>
    cases n with
    | zero =>
      cases hsl
      rw [firstBadSlot, if_neg (by simp [hbad])]
      rfl
    | succ n =>
      have hrest := ih (n := n) hsl (fun j sj hj => hgood (j + 1) sj (Nat.succ_lt_succ hj)) (k + 1)
      rw [firstBadSlot, if_pos (hgood 0 x n.succ_pos rfl), hrest, Nat.add_right_comm]
      rfl

theorem pack_slotOperand (o : BitVec 4) (m : MotorId) (n : BitVec 4) :
    ErrInfo.pack { opc := o, motor := m, slot := n } = packed (n ++ 0#20 ++ m ++ o) := by
  apply BitVec.eq_of_toNat_eq
  rw [pack_toNat, packed_toNat]
  simp only [toNat_cat, BitVec.toNat_ofNat, Bool.toNat_false]
  omega

/-- Settles O22: the check stops at the first failing slot, and the raise is RUN's. -/
theorem runRejectsFirstBadSlot : Obligations.RunRejectsFirstBadSlot := by
  intro s n sl hsl hbad hgood
  have hfirst := firstBadSlot_eq_some hsl hbad hgood 0
  rw [Nat.zero_add] at hfirst
  show execRun s = _
  simp only [execRun, hfirst, raise_eq_endedByError, pack_slotOperand, if_true]

/-! ## The cursor (42_step_scheduler.md R176) -/

/-- Going on from the next place round a list of length `n` is going one place further. -/
theorem mod_succ_add_mod (c n j : Nat) : ((c + 1) % n + j) % n = (c + (j + 1)) % n := by
  rw [Nat.mod_add_mod, Nat.add_assoc, Nat.add_comm 1]

/-- The cursor stops at the first slot with work, going round from `c`. -/
theorem seekActive_skipped {slots : List Slot} {k c n : Nat} (hc : c < slots.length)
    (h : seekActive slots k c = some n) :
    ∃ i, i < k ∧ n = (c + i) % slots.length ∧
      ∀ (j : Nat) (sj : Slot), j < i → slots[(c + j) % slots.length]? = some sj → sj.remaining = 0 := by
  induction k generalizing c with
  | zero => cases h
  | succ k ih =>
    have hsl : slots[c]? = some slots[c] := List.getElem?_eq_getElem hc
    obtain hzero | hpos := Nat.eq_zero_or_pos slots[c].remaining
    · rw [seekActive_skip hsl hzero] at h
      obtain ⟨i, hi, hn, hskip⟩ := ih (Nat.mod_lt _ (Nat.zero_lt_of_lt hc)) h
      rw [mod_succ_add_mod] at hn
      refine ⟨i + 1, Nat.succ_lt_succ hi, hn, fun j sj hj hsj => ?_⟩
      cases j with
      | zero =>
        rw [Nat.add_zero, Nat.mod_eq_of_lt hc, hsl] at hsj
        cases hsj
        exact hzero
      | succ j => exact hskip j sj (Nat.lt_of_succ_lt_succ hj) (mod_succ_add_mod c _ j ▸ hsj)
    · rw [seekActive_here hsl hpos] at h
      cases h
      exact ⟨0, k.succ_pos, (Nat.mod_eq_of_lt hc).symm, fun j _ hj => absurd hj j.not_lt_zero⟩

/-- With work left, the loop goes to the first slot with some, going round from the cursor. -/
theorem runHead_work (hcur : s.runCur < s.slots.length) (hcount : s.runDone + totalRemaining s.slots = s.runTotal)
    (hwork : 0 < totalRemaining s.slots) :
    ∃ i, i < s.slots.length ∧
      runHead s = .next (continueWith (.runPhase 0) { s with runCur := (s.runCur + i) % s.slots.length }) ∧
      (∃ sl, s.slots[(s.runCur + i) % s.slots.length]? = some sl ∧ 0 < sl.remaining) ∧
      ∀ (j : Nat) (sj : Slot), j < i → s.slots[(s.runCur + j) % s.slots.length]? = some sj → sj.remaining = 0 := by
  obtain ⟨n, hseek⟩ := seekActive_some s.slots s.runCur hcur hwork
  obtain ⟨i, hi, rfl, hskip⟩ := seekActive_skipped hcur hseek
  refine ⟨i, hi, ?_, seekActive_active _ _ _ _ hseek, hskip⟩
  rw [runHead, if_pos (by omega), hseek]

/-- After a visit, with work left, the loop goes to the next slot with some, going round from the visited one. -/
theorem runHead_advanceCursor_work (hcur : s.runCur < s.slots.length)
    (hcount : s.runDone + totalRemaining s.slots = s.runTotal) (hwork : 0 < totalRemaining s.slots) :
    ∃ k, 0 < k ∧ k ≤ s.slots.length ∧ runHead (advanceCursor s) =
        .next (continueWith (.runPhase 0) { s with runCur := (s.runCur + k) % s.slots.length }) ∧
      (∃ sl, s.slots[(s.runCur + k) % s.slots.length]? = some sl ∧ 0 < sl.remaining) ∧
      ∀ (i : Nat) (si : Slot), 0 < i → i < k → s.slots[(s.runCur + i) % s.slots.length]? = some si →
        si.remaining = 0 := by
  obtain ⟨i, hi, hgo, hstop, hskip⟩ := runHead_work (s := advanceCursor s)
    (Nat.mod_lt _ (Nat.zero_lt_of_lt hcur)) hcount hwork
  have hplace : ∀ j, ((advanceCursor s).runCur + j) % (advanceCursor s).slots.length =
      (s.runCur + (j + 1)) % s.slots.length := mod_succ_add_mod s.runCur s.slots.length
  rw [hplace] at hgo hstop
  refine ⟨i + 1, i.succ_pos, hi, hgo, hstop, fun j sj hj0 hj hsj => ?_⟩
  obtain ⟨j, rfl⟩ := Nat.exists_eq_succ_of_ne_zero hj0.ne'
  exact hskip j sj (Nat.lt_of_succ_lt_succ hj) ((hplace j).symm ▸ hsj)

/-! ## RUN's decode step and its dwell step (42_step_scheduler.md R174, R175, R179) -/

/-- The slot at a place of the started list is the loaded one there, with another index. -/
theorem getElem?_startRun_eq_some {n : Nat} {sl : Slot} :
    (startRun s).slots[n]? = some sl ↔ ∃ old, s.slots[n]? = some old ∧ s.startSlot old = sl := by
  simp [startRun]

/-- With work on the list, the started loop goes to the first slot with some. -/
theorem runHead_startRun_work (hwork : 0 < totalRemaining s.slots) :
    ∃ n, runHead (startRun s) = .next (continueWith (.runPhase 0) { startRun s with runCur := n }) ∧
      (∃ sl, s.slots[n]? = some sl ∧ 0 < sl.remaining) ∧
      ∀ (k : Nat) (sk : Slot), k < n → s.slots[k]? = some sk → sk.remaining = 0 := by
  have hcur : 0 < (startRun s).slots.length := by
    obtain ⟨n, sl, hsl, -⟩ := exists_active_of_totalRemaining_pos s.slots hwork
    exact (Nat.zero_lt_of_lt (List.getElem?_eq_some_iff.mp hsl).1).trans_eq (List.length_map _).symm
  have htotal : totalRemaining (startRun s).slots = totalRemaining s.slots := totalRemaining_startSlot s s.slots
  obtain ⟨n, hn, hgo, hstop, hskip⟩ := runHead_work hcur ((Nat.zero_add _).trans htotal) (htotal ▸ hwork)
  have hplace : ∀ j ≤ n, ((startRun s).runCur + j) % (startRun s).slots.length = j := fun j hj =>
    (congrArg (· % _) (Nat.zero_add j)).trans (Nat.mod_eq_of_lt (hj.trans_lt hn))
  rw [hplace n le_rfl] at hgo hstop
  obtain ⟨sl, hsl, hpos⟩ := hstop
  obtain ⟨old, hold, rfl⟩ := getElem?_startRun_eq_some.mp hsl
  refine ⟨n, hgo, ⟨old, hold, hpos⟩, fun k sk hk hsk => ?_⟩
  exact hskip k (s.startSlot sk) hk ((hplace k hk.le).symm ▸ getElem?_startRun_eq_some.mpr ⟨sk, hsk, rfl⟩)

/-- Settles O23: without work the loop ends; with work it goes to the first slot with some. -/
theorem runStartsEverySlot : Obligations.RunStartsEverySlot := by
  intro s hmotors
  show ∃ t, execRun s = .next t ∧ _
  rw [execRun_of_motorOk hmotors]
  obtain hzero | hwork := Nat.eq_zero_or_pos (s.slots.map Slot.remaining).sum
  · exact ⟨_, runHead_end hzero.le, rfl, fun _ => rfl, fun hpos => absurd hzero hpos.ne'⟩
  · obtain ⟨n, hgo, hstop, hskip⟩ := runHead_startRun_work hwork
    exact ⟨_, hgo, rfl, fun hzero => absurd hzero hwork.ne', fun _ => ⟨rfl, hstop, hskip⟩⟩

/-- Settles O26: the last phase-step of a slot leads to its de-energize, any other to the next slot with work. (The
bare name is the model's step.) -/
theorem runDwellStep_spec : Obligations.RunDwellStep := by
  intro s sl hinv ha hk hsl
  obtain ⟨hr, active, hactive, hpos⟩ : RunOk s ∧ ∃ sl, s.slots[s.runCur]? = some sl ∧ 0 < sl.remaining := by
    simpa only [ContOk, hk] using hinv.cont
  obtain rfl : sl = active := Option.some.inj (hsl.symm.trans hactive)
  have hleft : (s.steppedSlot sl).remaining = sl.remaining - 1 := rfl
  have hstep : step s = runDwellStep s := by
    rw [step_of_agenda_nil ha]
    simp only [sequencerStep, hk]
  rw [hstep, runDwellStep_eq hsl]
  obtain hlast | hmore : sl.remaining = 1 ∨ 1 < sl.remaining := by omega
  · rw [if_pos (by omega)]
    exact ⟨_, rfl, rfl, fun _ => ⟨rfl, rfl⟩, fun hmore => absurd hlast hmore.ne'⟩
  · rw [if_neg (by omega)]
    have hready := runOk_afterDwell hr hsl hpos
    have hsl' := getElem?_afterDwell hsl
    have hwork := totalRemaining_pos hsl' (by omega)
    have hcur := (List.getElem?_eq_some_iff.mp hsl').1
    obtain ⟨k, hk0, hk, hgo, hstop, hskip⟩ := runHead_advanceCursor_work hcur hready.counted hwork
    have hlen : (afterDwell sl s).slots.length = s.slots.length := List.length_set
    rw [hlen] at hk hgo hstop hskip
    exact ⟨_, hgo, rfl, fun hlast => absurd hlast hmore.ne', fun _ => ⟨rfl, k, hk0, hk, rfl, hstop, hskip⟩⟩

end Sys2Proof.Machine
end

section
/-! PROOF. The control commands and the two illegal opcode ranges (O9, O10, O11). -/

namespace Sys2Proof.Machine

/-! ## NOP and CLRERR (43_control.md R200, R201) -/

/-- An accepted command whose decode step leads, with BUSY still 1, straight to `complete` ends with its second step
(70_reset_and_hazards.md R291). -/
theorem endsAfter_decodeThenComplete {s u : State} {i : Instr} (hoff : (encode i).off = 0) (hwf : i.wf = true)
    (h : Accepted (commandWord i) s) (hexec : exec i s = .next (continueWith .complete u)) (hb : u.busy = true) :
    EndsAfter 2 s (complete u) := by
  have hdecode := leads_exec h (decodeCommand_of_accepted hoff hwf h)
  rw [hexec] at hdecode
  exact endsAfter_of_leads (hdecode.trans (leads_complete hb)) h.agenda rfl rfl

/-- Settles O9: NOP's decode step leads to `complete` from the state itself. -/
theorem nopOnlyCompletes : Obligations.NopOnlyCompletes :=
  fun _ => ⟨rfl, fun h => endsAfter_decodeThenComplete (i := .nop) rfl rfl h rfl h.busy⟩

/-- Settles O10: CLRERR's decode step leads to `complete` from the state with the error record cleared. -/
theorem clrerrClearsErrorRecord : Obligations.ClrerrClearsErrorRecord :=
  fun s => ⟨rfl, fun h => endsAfter_decodeThenComplete (u := clearErrors s) (i := .clrerr) rfl rfl h rfl h.busy⟩

/-! ## The illegal opcode ranges (43_control.md R202, 60_exceptions.md R221) -/

/-- Settles O11: both meanings are the raise of E_ILLEGAL, with opcode 7 and with bit 31 set before the word's bits
[30:28]. -/
theorem illegalOpcodesRaise : Obligations.IllegalOpcodesRaise :=
  fun s => ⟨fun _ => congrArg Host.Outcome.next (raiseIllegal_eq_endedByError 0x7#4 s),
    fun rest => congrArg Host.Outcome.next (raiseIllegal_eq_endedByError (1#1 ++ rest.extractLsb' 28 3) s)⟩

end Sys2Proof.Machine
end

section
/-! PROOF. A pin write, accepted or rejected (O18, O19), and the host's changes of a pin (O38). The four kinds of write
are one: the sequencer's step is `writePin` of the pending write. -/

namespace Sys2Proof.Machine

variable {s t u : State} {w : PatternWrite} {j : Fin 4}

/-! ## The sequencer's step at a pending write (41_pwm_sequencer.md R142) -/

/-- The command goes on from `u` to `t`: only the continuation and the cursor move. -/
def GoesOnFrom (u t : State) : Prop := ∃ k n, t = continueWith k { u with runCur := n }

theorem goesOnFrom_continueWith (k : Cont) (u : State) : GoesOnFrom u (continueWith k u) := ⟨k, u.runCur, rfl⟩

theorem goesOnFrom_runHead (u : State) : EveryNext (GoesOnFrom u) (runHead u) := by
  obtain ⟨n, -, -, hgo⟩ | ⟨-, -, hgo⟩ | ⟨-, hgo⟩ := runHead_cases u <;> rw [hgo]
  · exact everyNext_next ⟨_, n, rfl⟩
  · exact everyNext_fault _
  · exact everyNext_next (goesOnFrom_continueWith _ u)

/-- The outcome of a step that writes a pin: `writePin` of the pending write, after which the command goes on; a fault
if there is nothing to write. -/
inductive WritesPin (s : State) : Outcome → Prop
  | fault (r : Fault) (hw : pendingWrite s = none) : WritesPin s (.fault r)
  | write {w : PatternWrite} {j : Fin 4} (next : State → Outcome) (hw : pendingWrite s = some (w, j))
      (hnext : ∀ u, EveryNext (GoesOnFrom u) (next u)) : WritesPin s (writePin w j next s)

theorem writesPin_advancePhaseStep (hk : s.cont = some (.advPhase j)) : WritesPin s (advancePhaseStep j s) := by
  unfold advancePhaseStep
  split
  next hp => exact .fault _ (by simp [pendingWrite, hk, hp])
  next hp => exact .write _ (by simp [pendingWrite, hk, hp]) fun u => everyNext_next (goesOnFrom_continueWith _ u)

theorem writesPin_deenergizeStep (hk : s.cont = some (.deenergize j)) : WritesPin s (deenergizeStep j s) :=
  .write _ (by simp [pendingWrite, hk]) fun u => everyNext_next (goesOnFrom_continueWith _ u)

theorem writesPin_runPhaseStep (hk : s.cont = some (.runPhase j)) : WritesPin s (runPhaseStep j s) := by
  unfold runPhaseStep
  split
  next hsl => exact .fault _ (by simp [pendingWrite, hk, hsl])
  next hsl =>
    split
    next hp => exact .fault _ (by simp [pendingWrite, hk, hsl, hp])
    next hp =>
      exact .write _ (by simp [pendingWrite, hk, hsl, hp]) fun u => everyNext_next (goesOnFrom_continueWith _ u)

theorem writesPin_runDeenergizeStep (hk : s.cont = some (.runDeenergize j)) : WritesPin s (runDeenergizeStep j s) := by
  unfold runDeenergizeStep
  split
  next hsl => exact .fault _ (by simp [pendingWrite, hk, hsl])
  next hsl =>
    exact .write _ (by simp [pendingWrite, hk, hsl]) fun u =>
      everyNext_ite (goesOnFrom_runHead (advanceCursor u)) (everyNext_next (goesOnFrom_continueWith _ u))

theorem writesPin_sequencerStep (hw : (pendingWrite s).isSome = true) : WritesPin s (sequencerStep s) := by
  unfold sequencerStep
  split
  case h_3 hk => exact writesPin_advancePhaseStep hk
  case h_5 hk => exact writesPin_deenergizeStep hk
  case h_6 hk => exact writesPin_runPhaseStep hk
  case h_8 hk => exact writesPin_runDeenergizeStep hk
  all_goals simp [pendingWrite, *] at hw

/-- With a write pending, the next step is that write. -/
theorem step_of_pendingWrite (ha : s.agenda = []) (hw : pendingWrite s = some (w, j)) :
    ∃ next, step s = writePin w j next s ∧ ∀ u, EveryNext (GoesOnFrom u) (next u) := by
  have hwrites : WritesPin s (sequencerStep s) := writesPin_sequencerStep (by simp [hw])
  rw [step_of_agenda_nil ha]
  generalize sequencerStep s = o at hwrites ⊢
  cases hwrites with
  | fault r hnone => cases hw.symm.trans hnone
  | write next hw' hnext =>
    cases hw.symm.trans hw'
    exact ⟨next, rfl, hnext⟩

theorem busy_of_pendingWrite (h : StateInv s) (hw : pendingWrite s = some (w, j)) : s.busy = true := by
  cases hk : s.cont with
  | none => simp [pendingWrite, hk] at hw
  | some k => exact busy_of_cont h hk

/-! ## The host's answer (60_exceptions.md R246) -/

theorem hostAccepts_iff (s : State) (p : PinId) : hostAccepts s p = true ↔ NextWriteAccepted s p := by
  unfold hostAccepts NextWriteAccepted
  cases s.cfg.hostModel <;> rfl

theorem drawAnswer_eq_drawsAfter (s : State) : drawAnswer s = { s with draws := drawsAfter s 1 } := by
  cases hm : s.cfg.hostModel <;> simp only [drawAnswer, drawsAfter, hm]

theorem writePin_accepted {next : State → Outcome} (h : NextWriteAccepted s ((s.chan w.motor).pin j)) :
    writePin w j next s = next (afterEvents [.pinWrite ((s.chan w.motor).pin j) (w.pat.getLsbD j.val)] s) := by
  rw [writePin, if_pos ((hostAccepts_iff s _).mpr h), acceptedWrite_eq_afterEvents]

theorem writePin_rejected {next : State → Outcome} (h : ¬ NextWriteAccepted s ((s.chan w.motor).pin j)) :
    writePin w j next s =
      .next (raise .pinFault (pinFaultInfo w j s) w.slot.isSome { s with draws := drawsAfter s 1 }) := by
  rw [writePin, if_neg (mt (hostAccepts_iff s _).mp h), drawAnswer_eq_drawsAfter]

/-! ## Accepted and rejected writes -/

/-- A command that goes on after its events has their effect so far. -/
theorem commandEffect_goesOnFrom {evs : List Event} (h : GoesOnFrom (afterEvents evs s) t) :
    CommandEffect evs s.slots s t := by
  obtain ⟨k, n, rfl⟩ := h
  exact ⟨rfl, rfl, rfl, rfl, rfl, rfl, rfl, rfl, rfl, rfl, rfl, rfl, rfl, rfl⟩

/-- The levels after one pin write are those of the port with that pin set. -/
theorem pinLevel_of_pinWrite {p : PinId} {b : Bool} (h : t.level = playEvents s.level [.pinWrite p b]) (q : PinId) :
    t.pinLevel q = (s.setPinLevel p b).pinLevel q := by
  simp only [State.pinLevel, h]
  rfl

/-- Settles O18: the step has a next state, since the invariant holds, and only the continuation and the cursor move
after the write's event. -/
theorem acceptedWriteSetsOnePin : Obligations.AcceptedWriteSetsOnePin := by
  intro s w j hinv ha hw hacc
  have hbusy := busy_of_pendingWrite hinv hw
  obtain ⟨next, hstep, hnext⟩ := step_of_pendingWrite ha hw
  rw [writePin_accepted hacc] at hstep
  obtain ⟨t, ht, -⟩ := descends_sequencerStep hinv hbusy
  rw [← step_of_agenda_nil ha] at ht
  have hgo := hnext _ t (hstep.symm.trans ht)
  have heffect := commandEffect_goesOnFrom hgo
  have hlevel := pinLevel_of_pinWrite heffect.level
  refine ⟨t, ht, heffect, ?_, ?_, fun q hq => ?_⟩
  · obtain ⟨k, n, rfl⟩ := hgo
    exact hbusy
  · rw [hlevel, pinLevel_setPinLevel_self]
  · rw [hlevel, pinLevel_setPinLevel_ne s _ q _ hq]

theorem pack_pinFaultInfo (w : PatternWrite) (j : Fin 4) (s : State) :
    (pinFaultInfo w j s).pack = packed (BitVec.ofNat 4 (w.slot.getD 0) ++ w.pat ++ (s.chan w.motor).pin j ++ 0#5 ++
      BitVec.ofBool w.deen ++ BitVec.ofNat 2 j.val ++ w.motor ++ opcField s.cmdl) := by
  apply BitVec.eq_of_toNat_eq
  rw [pack_toNat, packed_toNat]
  simp only [pinFaultInfo, State.cmdOpc, toNat_cat, BitVec.toNat_ofNat, BitVec.toNat_ofBool, Bool.toNat_false]
  omega

/-- Settles O19: the write's step raises E_PIN_FAULT; the raise is RUN's exactly if the write names a slot. -/
theorem rejectedWriteEndsCommand : Obligations.RejectedWriteEndsCommand := by
  intro s w j ha hw hrej
  obtain ⟨next, hstep, -⟩ := step_of_pendingWrite ha hw
  rw [hstep, writePin_rejected hrej, raise_eq_endedByError, pack_pinFaultInfo]
  cases w.slot <;> rfl

/-! ## The host's changes of a pin (60_exceptions.md R247) -/

/-- Settles O38: the step is the change of the one bit. -/
theorem hostChangesOnePin : Obligations.HostChangesOnePin := by
  intro s p b rest
  refine ⟨fun ha => ⟨_, step_host ha, rfl, outEnabled_setOutEnabled_self .., fun q hq => ?_⟩,
    fun ha => ⟨_, step_host ha, rfl, pinLevel_setPinLevel_self .., fun q hq => ?_⟩⟩
  · exact outEnabled_setOutEnabled_ne { s with agenda := rest } p q b hq
  · exact pinLevel_setPinLevel_ne { s with agenda := rest } p q b hq

end Sys2Proof.Machine
end

section
/-! PROOF. The first error stays recorded until CLRERR or reset (O40): one lemma per operation and step. -/

namespace Sys2Proof.Machine

variable {s t u : State} {code : ErrCode} {info : Word} {ovf : Bool} {o : Outcome}

/-- The first error stands recorded as `code` with `info`, and ERROVF is 1 if `ovf` is. -/
def FirstError (code : ErrCode) (info : Word) (ovf : Bool) (s : State) : Prop :=
  s.err = true ∧ s.ecode = code ∧ s.errinfo = info ∧ (ovf = true → s.errovf = true)

/-- The next state the outcome gives, if it gives one, has that first error. -/
abbrev KeepsError (code : ErrCode) (info : Word) (ovf : Bool) (o : Outcome) : Prop :=
  EveryNext (FirstError code info ovf) o

/-! ## The shared operations -/

/-- A later error sets ERROVF only (60_exceptions.md R228). -/
theorem firstError_recordError (later : ErrCode) (linfo : ErrInfo) (h : FirstError code info ovf s) :
    FirstError code info ovf (recordError later linfo s) := by
  obtain ⟨herr, hcode, hinfo, -⟩ := h
  rw [recordError_later s later linfo herr]
  exact ⟨herr, hcode, hinfo, fun _ => rfl⟩

theorem firstError_raise (later : ErrCode) (linfo : ErrInfo) (inRun : Bool) (h : FirstError code info ovf s) :
    FirstError code info ovf (raise later linfo inRun s) := by
  unfold raise
  split <;> exact firstError_recordError later linfo h

theorem firstError_hostRead (width off : Nat) (h : FirstError code info ovf s) :
    FirstError code info ovf (hostRead width off s) := by
  rw [hostRead_eq]
  exact h

theorem firstError_submit (w : Word) (h : FirstError code info ovf s) : FirstError code info ovf (submit w s) := by
  unfold submit
  split
  · exact firstError_recordError _ _ h
  · exact h

theorem firstError_writeChannel (m : MotorId) (f : Channel → Channel) (h : FirstError code info ovf s) :
    FirstError code info ovf (writeChannel m f s) := by
  unfold writeChannel
  split
  · split
    · exact firstError_recordError _ _ h
    · exact h
  · exact h

theorem keepsError_raise {later : ErrCode} {linfo : ErrInfo} {inRun : Bool} (h : FirstError code info ovf s) :
    KeepsError code info ovf (.next (raise later linfo inRun s)) :=
  everyNext_next (firstError_raise _ _ _ h)

/-- A command that goes on records no error. -/
theorem keepsError_of_goesOnFrom (h : FirstError code info ovf u) (ho : EveryNext (GoesOnFrom u) o) :
    KeepsError code info ovf o := by
  intro t ht
  obtain ⟨k, n, rfl⟩ := ho t ht
  exact h

theorem keepsError_runHead (h : FirstError code info ovf s) : KeepsError code info ovf (runHead s) :=
  keepsError_of_goesOnFrom h (goesOnFrom_runHead s)

/-- A pin write records no error if it is accepted, and a later one if it is rejected. -/
theorem keepsError_of_writesPin (h : FirstError code info ovf s) (ho : WritesPin s o) : KeepsError code info ovf o := by
  have hdraw : FirstError code info ovf (drawAnswer s) := by
    rw [drawAnswer_eq_drawsAfter]
    exact h
  cases ho with
  | fault r => exact everyNext_fault r
  | write next _ hnext =>
    exact everyNext_ite (keepsError_of_goesOnFrom (u := acceptedWrite _ _ s) hdraw (hnext _)) (keepsError_raise hdraw)

/-! ## The instructions -/

theorem keepsError_execLoad (m : MotorId) (d : Dir) (cnt : Int) (h : FirstError code info ovf s) :
    KeepsError code info ovf (execLoad m d cnt s) :=
  everyNext_ite (everyNext_ite (keepsError_raise h) (everyNext_ite (everyNext_next h) (keepsError_raise h)))
    (keepsError_raise h)

theorem keepsError_execRun (h : FirstError code info ovf s) : KeepsError code info ovf (execRun s) := by
  unfold execRun
  split
  · exact keepsError_raise h
  · exact keepsError_runHead (s := startRun s) h

/-- Of all instructions only CLRERR touches a first error (43_control.md R201). -/
theorem keepsError_exec {i : Instr} (hi : i ≠ .clrerr) (h : FirstError code info ovf s) :
    KeepsError code info ovf (exec i s) := by
  cases i with
  | nop => exact everyNext_next h
  | advance m d cnt =>
    exact everyNext_ite (everyNext_ite (keepsError_raise h) (everyNext_next h)) (keepsError_raise h)
  | deenergize m => exact everyNext_ite (everyNext_next h) (keepsError_raise h)
  | load m d cnt => exact keepsError_execLoad m d cnt h
  | run => exact keepsError_execRun h
  | clear => exact everyNext_next h
  | clrerr => exact absurd rfl hi
  | illegalOpc7 rest => exact keepsError_raise h
  | illegalOpc8F rest => exact keepsError_raise h
  | wrChCtrl m v => exact everyNext_next (firstError_writeChannel m _ h)
  | wrChPins m v => exact everyNext_next (firstError_writeChannel m _ h)
  | wrChDelay m v => exact everyNext_next (firstError_writeChannel m _ h)

/-! ## The sequencer's steps -/

theorem keepsError_decodeStep (hclr : decodeCommand s.cmdl ≠ .ok .clrerr) (h : FirstError code info ovf s) :
    KeepsError code info ovf (decodeStep s) := by
  unfold decodeStep
  split
  next i hd => exact keepsError_exec (fun hi => hclr (hi ▸ hd)) h
  next => exact keepsError_raise h

theorem keepsError_runDwellStep (h : FirstError code info ovf s) : KeepsError code info ovf (runDwellStep s) := by
  cases hsl : s.slots[s.runCur]? with
  | none =>
    rw [runDwellStep, hsl]
    exact everyNext_fault _
  | some sl =>
    rw [runDwellStep_eq hsl]
    exact everyNext_ite (everyNext_next h) (keepsError_runHead (s := advanceCursor (afterDwell sl s)) h)

theorem keepsError_sequencerStep (hclr : ¬ (s.cont = some .decode ∧ decodeCommand s.cmdl = .ok .clrerr))
    (h : FirstError code info ovf s) : KeepsError code info ovf (sequencerStep s) := by
  unfold sequencerStep
  split
  next => exact everyNext_next h
  next hk => exact keepsError_decodeStep (fun hd => hclr ⟨hk, hd⟩) h
  next hk => exact keepsError_of_writesPin h (writesPin_advancePhaseStep hk)
  next => exact everyNext_next h
  next hk => exact keepsError_of_writesPin h (writesPin_deenergizeStep hk)
  next hk => exact keepsError_of_writesPin h (writesPin_runPhaseStep hk)
  next => exact keepsError_runDwellStep h
  next hk => exact keepsError_of_writesPin h (writesPin_runDeenergizeStep hk)
  next => exact everyNext_next h
  next => exact everyNext_next h

/-! ## The host's steps -/

theorem keepsError_admittedWrite (off : Nat) (v : Word) (h : FirstError code info ovf s) :
    KeepsError code info ovf (admittedWrite off v s) := by
  unfold admittedWrite
  split
  · exact everyNext_next (firstError_submit v h)
  · split
    next hi =>
      obtain ⟨m, rfl | rfl | rfl⟩ := decodeChannelWrite_cases hi <;> exact keepsError_exec (by simp) h
    next => exact everyNext_next h

theorem keepsError_hostStep {op : HostOp} (hop : op ≠ .reset) (h : FirstError code info ovf s) :
    KeepsError code info ovf (hostStep op s) := by
  cases op with
  | regRead width off => exact everyNext_next (firstError_hostRead width off h)
  | regWrite width off v =>
    exact everyNext_ite (keepsError_admittedWrite (s := answer .ok s) off v h) (everyNext_next h)
  | setOutEn p b => exact everyNext_next h
  | setLevel p b => exact everyNext_next h
  | reset => exact absurd rfl hop

theorem keepsError_waitStep (h : FirstError code info ovf s) : KeepsError code info ovf (waitStep s) :=
  have hread := firstError_hostRead 32 0x004 h
  everyNext_ite (everyNext_next hread) (everyNext_next hread)

/-! ## A step of the machine -/

theorem keepsError_step (hreset : s.agenda.head? ≠ some (.host .reset))
    (hclr : ¬ (SequencerTurn s ∧ s.cont = some .decode ∧ decodeCommand s.cmdl = .ok .clrerr))
    (h : FirstError code info ovf s) : KeepsError code info ovf (step s) := by
  unfold step
  split
  next ha => exact keepsError_sequencerStep (fun hd => hclr ⟨.inl ha, hd⟩) h
  next rest ha =>
    exact keepsError_sequencerStep (s := { s with agenda := rest }) (fun hd => hclr ⟨.inr (by simp [ha]), hd⟩) h
  next op rest ha =>
    have hop : op ≠ .reset := fun hop => hreset (by simp [ha, hop])
    exact keepsError_hostStep (s := { s with agenda := rest }) hop h
  next rest ha => exact keepsError_waitStep (s := { s with agenda := rest }) h

/-- Settles O40: whoever moves, the error recorded first stays so. -/
theorem firstErrorIsSticky : Obligations.FirstErrorIsSticky :=
  fun _ t hstep herr hreset hclr => keepsError_step hreset hclr ⟨herr, rfl, rfl, id⟩ t hstep

end Sys2Proof.Machine
end

section
/-! PROOF. Reset (O39, O46), and the two rules of R291: no step stops the machine (O48), every command ends (O49). -/

namespace Sys2Proof.Machine

variable {s t : State}

/-! ## Reset (70_reset_and_hazards.md R260, R261) -/

/-- No motor operand is valid after reset (30_encoding.md R96). -/
theorem motorOk_resetBlock (s : State) (m : MotorId) : (resetBlock s).motorOk m = false := by
  simp [State.motorOk, Channel.unbuilt]

/-- Settles O39: the host's step is the reset of the block, after which every channel is unbuilt. -/
theorem resetLoadsResetValues : Obligations.ResetLoadsResetValues := by
  intro s rest ha
  refine ⟨_, step_host ha, ⟨rfl, rfl, rfl, rfl, rfl, rfl, rfl, rfl, rfl, rfl, rfl, rfl, rfl⟩, fun m => ?_,
    ⟨rfl, rfl, rfl, rfl, rfl, rfl, rfl⟩⟩
  rw [motorOk_resetBlock, chan_resetBlock]
  exact ⟨rfl, rfl, rfl, rfl⟩

/-- The reference parameters are legal (00_scope.md R6). -/
theorem configOk_referenceConfig : ConfigOk referenceConfig := by decide

theorem inv_reset : StateInv State.reset where
  cfg := configOk_referenceConfig
  busy := rfl
  listFits := Nat.zero_le _
  slots _ hm := absurd hm List.not_mem_nil
  absent m _ := chan_resetBlock State.reset m
  noError _ := ⟨rfl, rfl, rfl⟩
  someError herr := absurd herr Bool.false_ne_true
  errinfoReserved := rfl
  advIdx := by decide
  advLeft := by decide
  runTotal := by decide
  runDone := by decide
  runCur := by decide
  cont := trivial

/-- Settles O46: the reference parameters are legal, and the block is idle, with an empty list and its counters at 0. -/
theorem resetMeetsInvariant : Obligations.ResetMeetsInvariant := inv_reset

/-! ## No step stops the machine (70_reset_and_hazards.md R291) -/

/-- A running command's step has a next state, and an idle sequencer stays where it is. -/
theorem exists_next_sequencerStep (h : StateInv s) : ∃ t, sequencerStep s = .next t := by
  cases hb : s.busy with
  | false => exact ⟨s, by simp only [sequencerStep, cont_of_idle h hb]⟩
  | true =>
    obtain ⟨t, ht, -⟩ := descends_sequencerStep h hb
    exact ⟨t, ht⟩

/-- A write to CMD submits a word, a CH_* offset decodes to a channel's write only, and the rest is ignored. -/
theorem exists_next_admittedWrite (off : Nat) (v : Word) (s : State) : ∃ t, admittedWrite off v s = .next t := by
  unfold admittedWrite
  split
  · exact ⟨_, rfl⟩
  · split
    next hi => obtain ⟨m, rfl | rfl | rfl⟩ := decodeChannelWrite_cases hi <;> exact ⟨_, rfl⟩
    next => exact ⟨s, rfl⟩

/-- The host's steps have next states in every state. -/
theorem exists_next_hostStep (op : HostOp) (s : State) : ∃ t, hostStep op s = .next t := by
  cases op with
  | regRead width off => exact ⟨_, rfl⟩
  | regWrite width off v =>
    unfold hostStep hostWrite
    dsimp only
    split
    · exact exists_next_admittedWrite off v _
    · exact ⟨_, rfl⟩
  | setOutEn p b => exact ⟨_, rfl⟩
  | setLevel p b => exact ⟨_, rfl⟩
  | reset => exact ⟨_, rfl⟩

theorem exists_next_waitStep (s : State) : ∃ t, waitStep s = .next t := by
  unfold waitStep
  split <;> exact ⟨_, rfl⟩

/-- Settles O48: the sequencer's step has a next state by the invariant, the host's step and the poll always. -/
theorem stepNeverStops : Obligations.StepNeverStops := by
  intro s h
  unfold step
  split
  · exact exists_next_sequencerStep h
  · exact exists_next_sequencerStep (inv_environment h)
  · exact exists_next_hostStep _ _
  · exact exists_next_waitStep _

/-! ## Every running command ends (70_reset_and_hazards.md R291, 42_step_scheduler.md R177) -/

/-- A finished slot is not counted among the active ones. -/
theorem activeCount_lt_length {slots : List Slot} {sl : Slot} (hmem : sl ∈ slots) (hzero : sl.remaining = 0) :
    activeCount slots < slots.length := by
  refine List.countP_le_length.lt_of_ne fun hall => ?_
  have hactive := List.countP_eq_length.mp hall sl hmem
  simp [hzero] at hactive

/-- No command has more steps left than the longest RUN at its decode step: 2 + 5 * 524272 + 4 * 16. -/
theorem stepsLeft_le (h : StateInv s) : stepsLeft s ≤ 2621426 := by
  have hleft := h.advLeft
  have htotal := totalRemaining_le s.slots fun sl hsl => (h.slots sl hsl).1
  have hactive : activeCount s.slots ≤ s.slots.length := List.countP_le_length
  have hlen := listLen_le_16 h
  unfold stepsLeft
  split
  case h_8 hk =>
    obtain ⟨-, sl, hsl, hzero⟩ : RunOk s ∧ ∃ sl, s.slots[s.runCur]? = some sl ∧ sl.remaining = 0 := by
      simpa only [ContOk, hk] using h.cont
    have hfinished := activeCount_lt_length (List.mem_of_getElem? hsl) hzero
    omega
  all_goals omega

/-- What the sequencer does alone keeps the invariant. -/
theorem inv_of_leads {n : Nat} (h : StateInv s) (hl : Leads n (.next s) (.next t)) : StateInv t := by
  induction n generalizing s with
  | zero => cases hl; exact h
  | succ n ih =>
    cases hl with
    | step _ hl =>
      obtain ⟨u, hu⟩ := exists_next_of_leads hl
      exact ih (sound_sequencerStep h u hu) (hu ▸ hl)

/-- Settles O49: the command ends after no more steps than it has left; with no turn left the machine makes those. -/
theorem everyCommandEnds : Obligations.EveryCommandEnds := by
  intro s h ha
  obtain ⟨n, t, hn, hleads, hidle⟩ := exists_leads_idle h
  obtain ⟨hrun, -⟩ := endsAfter_of_leads hleads ha hidle (cont_of_idle (inv_of_leads h hleads) hidle)
  exact ⟨n, t, hn.trans (stepsLeft_le h), hrun, hidle⟩

end Sys2Proof.Machine
end
